-- ==== Sys2Proof/Word.lean ====
section
/-! DEFINITION. The two word types of the engine (00_scope.md R6, R11): unsigned 64-bit words and 8-bit bytes. -/

namespace Sys2Proof

/-- `u64` of R12: an unsigned 64-bit word. -/
abbrev Word := BitVec 64

/-- One byte of the message space, of the parameter block or of DIGEST. -/
abbrev Byte := BitVec 8

end Sys2Proof
end

