-- ==== Sys2Proof/Config.lean ====
section
/-! DEFINITION. What an implementation fixes (KEY_POLICY) and the one free value of the model. -/

namespace Sys2Proof

/-- The parameter KEY_POLICY of R7 (92_eei_decisions.md D10): whether a nonzero key length is stored or refused. -/
inductive KeyPolicy
  | storeOnly
  | reject
  deriving DecidableEq, Repr

/-- FREE VALUE (R70 e, R332, 93_implementation_defined.md U4). When the host overwrites message byte `a` during the
`n`-th hash call, which of the values that byte had during the call the engine uses is unspecified, byte by byte:
`raceChoice n a` makes the choice and nothing is known about it. Log entry 6. -/
opaque Config.raceChoice : Nat → Nat → Nat

end Sys2Proof
end

