-- ==== Sys2Proof/Syntax.lean ====
section
/-! DEFINITION. The fifteen rows of opcode_table.json as one inductive, and the two kinds of encoded word (R90). -/

namespace Sys2Proof

/-- One constructor per row of the opcode table: six host commands (format C, R94), then nine sequencer steps
(format S, R97). -/
inductive Instr
  /-- INIT (R251): `d` is the digest length, `k` the key length, both unsigned 8-bit immediates (R93). -/
  | init (d k : BitVec 8)
  /-- SET_DLEN (R253): `n` is the digest length. -/
  | setDlen (n : BitVec 8)
  /-- SET_SALT (R254). -/
  | setSalt
  /-- SET_PERS (R255). -/
  | setPers
  /-- HASH (R256). -/
  | hash
  /-- CLR_ERR (R257). -/
  | clrErr
  /-- IDLE (R212). -/
  | idle
  /-- START (R213). -/
  | start
  /-- CHECK (R214, R215). -/
  | check
  /-- LOAD (R144). -/
  | load
  /-- VINIT (R191). -/
  | vinit
  /-- MIX (R163): `r` is the round index, legal values 0 to 11, `i` the application index. -/
  | mix (r : BitVec 4) (i : BitVec 3)
  /-- FOLD (R193). -/
  | fold
  /-- NEXT (R217). -/
  | next
  /-- OUT (R218). -/
  | out
  deriving DecidableEq, Repr

/-- The phases of the sequencer (R27). -/
inductive Phase
  | idle | start | check | load | vinit | mix | fold | next | out
  deriving DecidableEq, Repr

/-- The two kinds of word that are decoded (R90). -/
inductive Encoded
  /-- A command word, format C, written by the host to CMD. -/
  | command (w : BitVec 32)
  /-- A sequencer word, format S, held in SEQ. -/
  | sequencer (w : BitVec 11)
  deriving DecidableEq, Repr

/-- Why a word is no instruction. -/
inductive DecodeError
  /-- A command word that matches no row of R94 (R95). -/
  | illegalCommand (w : BitVec 32)
  /-- A sequencer word whose PHASE is 9 to 15 (R99). -/
  | phaseNeverProduced (w : BitVec 11)
  /-- A MIX word whose R is 12 to 15 (R99). -/
  | roundNeverProduced (w : BitVec 11)
  /-- A word of another phase than MIX whose R or I is nonzero (R99). -/
  | indexOutsideMix (w : BitVec 11)
  deriving DecidableEq, Repr

end Sys2Proof
end

