-- ==== Sys2Proof/WellFormed.lean ====
section
/-! DEFINITION. Which instructions are well formed. The only check: the round index of a MIX step is 0 to 11 (R99, R163).
An operand of INIT or SET_DLEN out of range is a legal encoding (R95), so it is well formed. -/

namespace Sys2Proof

def wellFormed : Instr → Bool
  | .init _ _ => true
  | .setDlen _ => true
  | .setSalt => true
  | .setPers => true
  | .hash => true
  | .clrErr => true
  | .idle => true
  | .start => true
  | .check => true
  | .load => true
  | .vinit => true
  | .mix r _ => decide (r.toNat < 12)
  | .fold => true
  | .next => true
  | .out => true

end Sys2Proof
end

