-- ==== Sys2Proof/Decode.lean ====
section
/-! DEFINITION. Decoding of command words (R91, R94, R95) and of sequencer words (R91, R97, R99), total and rejecting
by name, and the encoder written from the same two maps. -/

namespace Sys2Proof

/-- Decode of a command word: the first (and only) row of R94 it matches under that row's mask. -/
def decodeCommand (w : BitVec 32) : Except DecodeError Instr :=
  if w &&& 0xFF0000FF#32 = 0x00000001#32 then .ok (.init (w.extractLsb' 8 8) (w.extractLsb' 16 8))
  else if w &&& 0xFFFF00FF#32 = 0x00000002#32 then .ok (.setDlen (w.extractLsb' 8 8))
  else if w = 0x00000003#32 then .ok .setSalt
  else if w = 0x00000004#32 then .ok .setPers
  else if w = 0x00000005#32 then .ok .hash
  else if w = 0x00000006#32 then .ok .clrErr
  else .error (.illegalCommand w)

/-- Decode of a sequencer word by the map of R97; the values of R99 are rejected. -/
def decodeSeq (w : BitVec 11) : Except DecodeError Instr :=
  if w &&& 0x780#11 = 0x280#11 then
    if (w.extractLsb' 3 4).toNat < 12 then .ok (.mix (w.extractLsb' 3 4) (w.extractLsb' 0 3))
    else .error (.roundNeverProduced w)
  else if 9 ≤ (w.extractLsb' 7 4).toNat then .error (.phaseNeverProduced w)
  else if w = 0x000#11 then .ok .idle
  else if w = 0x080#11 then .ok .start
  else if w = 0x100#11 then .ok .check
  else if w = 0x180#11 then .ok .load
  else if w = 0x200#11 then .ok .vinit
  else if w = 0x300#11 then .ok .fold
  else if w = 0x380#11 then .ok .next
  else if w = 0x400#11 then .ok .out
  else .error (.indexOutsideMix w)

/-- Decode of either kind of word (R90). -/
def decode : Encoded → Except DecodeError Instr
  | .command w => decodeCommand w
  | .sequencer w => decodeSeq w

/-- A command word from its fields (R91): Z = 0, B, A, OP. -/
def commandWord (b a op : BitVec 8) : BitVec 32 := 0#8 ++ b ++ a ++ op

/-- The command word of `INIT d, k`: 0x00000001 | d << 8 | k << 16 (R251). -/
def initWord (d k : BitVec 8) : BitVec 32 := commandWord k d 0x01#8

/-- The command word of `SET_DLEN n`: 0x00000002 | n << 8 (R253). -/
def setDlenWord (n : BitVec 8) : BitVec 32 := commandWord 0#8 n 0x02#8

/-- The phase codes of R27. -/
def phaseCode : Phase → BitVec 4
  | .idle => 0
  | .start => 1
  | .check => 2
  | .load => 3
  | .vinit => 4
  | .mix => 5
  | .fold => 6
  | .next => 7
  | .out => 8

/-- SEQ as one word: PHASE in bits 10:7, R in bits 6:3, I in bits 2:0 (R27, R91). -/
def seqWord (p : Phase) (r : BitVec 4) (i : BitVec 3) : BitVec 11 := phaseCode p ++ r ++ i

/-- The encoder: the word of each instruction (R94, R97). -/
def encode : Instr → Encoded
  | .init d k => .command (initWord d k)
  | .setDlen n => .command (setDlenWord n)
  | .setSalt => .command (commandWord 0#8 0#8 0x03#8)
  | .setPers => .command (commandWord 0#8 0#8 0x04#8)
  | .hash => .command (commandWord 0#8 0#8 0x05#8)
  | .clrErr => .command (commandWord 0#8 0#8 0x06#8)
  | .idle => .sequencer (seqWord .idle 0 0)
  | .start => .sequencer (seqWord .start 0 0)
  | .check => .sequencer (seqWord .check 0 0)
  | .load => .sequencer (seqWord .load 0 0)
  | .vinit => .sequencer (seqWord .vinit 0 0)
  | .mix r i => .sequencer (seqWord .mix r i)
  | .fold => .sequencer (seqWord .fold 0 0)
  | .next => .sequencer (seqWord .next 0 0)
  | .out => .sequencer (seqWord .out 0 0)

/-- The decoder on a word as opcode_table.json gives it: rows of 32 bits are command words, rows of 11 bits (16 in whole
bytes, the bits above the row's being 0) are sequencer words. Log entry 12. -/
def decodeTableWord (nbits w : Nat) : Option Instr :=
  if nbits ≤ 16 then
    if w < 2 ^ 11 then (decodeSeq (BitVec.ofNat 11 w)).toOption else none
  else
    if w < 2 ^ 32 then (decodeCommand (BitVec.ofNat 32 w)).toOption else none

end Sys2Proof
end

