-- ==== Sys2Proof/Machine/State.lean ====
section
/-! DEFINITION. The state of the machine as plain data (10_state.md R20 to R47), the reasons a step can stop, and the
state after reset. -/

namespace Sys2Proof.Machine

/-- The message space (R60): the listed bytes by address; Ops.lean says what an unlisted address reads as. -/
abbrev Memory := List Host.Cell

/-- One turn of the interleaving of the two agents (R8, R70 c, R336): the engine's next step, or one host action. -/
inductive Turn
  /-- The engine takes its next step. -/
  | engine
  /-- HostWrite(reg, value) (R92). -/
  | write (reg : Nat) (value : BitVec 64)
  /-- HostRead(reg) (R92). -/
  | read (reg : Nat)
  /-- The host stores one byte into the message space (R60, R100). -/
  | store (addr : BitVec 64) (byte : Byte)
  /-- The Reset action (R320). -/
  | reset
  deriving DecidableEq, Repr

structure State where
  /-- H[0..7], the chaining value (R21). -/
  h : Vector Word 8
  /-- V[0..15], the working state (R22). -/
  v : Vector Word 16
  /-- M[0..15], the block buffer (R23). -/
  m : Vector Word 16
  /-- T0, the low word of the byte counter (R24). -/
  t0 : Word
  /-- T1, the high word of the byte counter (R24). -/
  t1 : Word
  /-- F0, the first finalization flag word (R25). -/
  f0 : Word
  /-- F1, the second finalization flag word (R25). -/
  f1 : Word
  /-- FINAL, the latch CHECK writes and FOLD reads (R25). -/
  final : Bool
  /-- SEQ, the sequencer: PHASE in bits 10:7, R in 6:3, I in 2:0 (R27). -/
  seq : BitVec 11
  /-- LEN, the latched message length in bytes (R28). -/
  len : BitVec 64
  /-- OFFSET, the running byte offset (R28). -/
  offset : BitVec 64
  /-- BLK, the block index (R28). -/
  blk : BitVec 57
  /-- DLEN, the digest length (R34). -/
  dlen : BitVec 8
  /-- KLEN, the key length field (R35). -/
  klen : BitVec 8
  /-- SALT[0] (R36). -/
  salt0 : Word
  /-- SALT[1] (R36). -/
  salt1 : Word
  /-- PERS[0] (R37). -/
  pers0 : Word
  /-- PERS[1] (R37). -/
  pers1 : Word
  /-- SALT_IN0, register 4 (R39). -/
  saltIn0 : Word
  /-- SALT_IN1, register 5 (R39). -/
  saltIn1 : Word
  /-- PERS_IN0, register 6 (R39). -/
  persIn0 : Word
  /-- PERS_IN1, register 7 (R39). -/
  persIn1 : Word
  /-- MSG_LEN, register 8 (R39). -/
  msgLen : BitVec 64
  /-- BUSY (R26). -/
  busy : Bool
  /-- DONE (R26). -/
  done : Bool
  /-- CFG (R26). -/
  cfg : Bool
  /-- ERR (R26). -/
  err : Bool
  /-- OVR (R26). -/
  ovr : Bool
  /-- ERRCODE, STATUS bits 15:8 (R39, R281). -/
  errcode : BitVec 8
  /-- ERRINFO, register 2 (R39, R281). -/
  errinfo : BitVec 32
  /-- DIGEST[0..63] (R43). -/
  digest : Vector Byte 64
  /-- OUT_LEN, register 3 (R43). -/
  outLen : BitVec 8
  /-- The message space (R44, R60). -/
  mem : Memory
  /-- MODEL'S OWN: the parameter KEY_POLICY (R7), never written. Log entry 5. -/
  keyPolicy : KeyPolicy
  /-- MODEL'S OWN: the turns still to come, first turn first; when it is empty every turn is the engine's. Log entry 3. -/
  agenda : List Turn
  /-- MODEL'S OWN: what HostRead handed to the host, newest first. Log entry 9. -/
  hostReads : List (Nat × BitVec 64)
  /-- MODEL'S OWN: message bytes the host overwrote during the running hash call, with the value each had before, newest
  first. Log entry 6. -/
  overwritten : List Host.Cell
  /-- MODEL'S OWN: how many HASH commands were accepted, the counter of the free value. Log entry 6. -/
  calls : Nat
  deriving DecidableEq, Repr

/-- The errors of R281. -/
inductive CommandError
  | digestLengthRange
  | keyLengthRange
  | keyedUnsupported
  | notConfigured
  | illegalCommand
  deriving DecidableEq, Repr

/-- Why the machine stops. -/
inductive Fault
  /-- Raised by an engine step when SEQ holds a value that is never produced (R99, U3), and by the MIX meaning for a round
  index of 12 to 15. SAFE: no such state is reachable from reset. -/
  | seqNeverProduced (w : BitVec 11)
  deriving DecidableEq, Repr

/-- What the model turns away. -/
inductive Refusal
  /-- Raised by an arm of exec whose instruction has no meaning yet; no arm uses it. SAFE. -/
  | notModelled (mnemonic : String)
  /-- Raised by a HostWrite whose value is wider than its register (R92, U10). SAFE: such a host action is outside the
  spec's domain. -/
  | hostValueTooWide (reg : Nat) (value : BitVec 64)
  deriving DecidableEq, Repr

/-- The outcome of a step of this machine. -/
abbrev Result := Host.Outcome State Fault Refusal

/-- What a turn comes to: the instruction it runs, or, for a turn that runs none, its whole outcome. -/
inductive Fetched
  /-- The engine's step at SEQ, or the legal command word written to CMD. -/
  | runs (i : Instr)
  /-- A host action that is no command, or a stop. -/
  | ends (r : Result)
  deriving Repr

/-- The machine right after reset (R46). Where R46 says "unspecified" the value is 0, a DESIGN CHOICE (log entry 1). -/
def State.reset : State where
  h := Vector.replicate 8 0
  v := Vector.replicate 16 0
  m := Vector.replicate 16 0
  t0 := 0
  t1 := 0
  f0 := 0
  f1 := 0
  final := false
  seq := 0x000#11
  len := 0
  offset := 0
  blk := 0
  dlen := 0
  klen := 0
  salt0 := 0
  salt1 := 0
  pers0 := 0
  pers1 := 0
  saltIn0 := 0
  saltIn1 := 0
  persIn0 := 0
  persIn1 := 0
  msgLen := 0
  busy := false
  done := false
  cfg := false
  err := false
  ovr := false
  errcode := 0
  errinfo := 0
  digest := Vector.replicate 64 0
  outLen := 0
  mem := []
  keyPolicy := .storeOnly
  agenda := []
  hostReads := []
  overwritten := []
  calls := 0

end Sys2Proof.Machine
end

