-- ==== Sys2Proof/Machine/Ops.lean ====
section
/-! DEFINITION. The named operations: words and bytes (R12), the message space (20_memory.md), the error entry and its
return (R290, R257), the decode order of a command write (R96), the Reset action (R320), the agenda. -/

namespace Sys2Proof.Machine

/-! ## Words and bytes (R12) -/

/-- `rotr64(x, n) = ((x >> n) | (x << (64 - n))) mod 2^64` for 0 < n < 64 (R12, R161). -/
def rotr64 (x : Word) (n : Nat) : Word := (x >>> n) ||| (x <<< (64 - n))

/-- `LE64(b 0, .., b 7)`: byte 0 is bits 7:0 (R12). -/
def le64 (b : Nat → Byte) : Word := b 7 ++ b 6 ++ b 5 ++ b 4 ++ b 3 ++ b 2 ++ b 1 ++ b 0

/-- Byte `k` of a word, `w[8k+7:8k]` (R11), the `k`-th byte of `BYTES64(w)` (R12). -/
def byteOf (w : Word) (k : Nat) : Byte := w.extractLsb' (8 * k) 8

/-- ALL1 = 0xFFFFFFFFFFFFFFFF (R12). -/
def all1 : Word := 0xFFFFFFFFFFFFFFFF#64

/-! ## The message space -/

/-- What a message byte reads as that nothing has written. DESIGN CHOICE 0x00 (log entry 4). -/
def unlistedByte : Byte := 0#8

/-- The byte stored at an address: a read always succeeds (R67). -/
def Memory.read : Memory → Nat → Byte
  | [], _ => unlistedByte
  | (k, b) :: rest, a => if a = k then b else Memory.read rest a

/-- One byte stored, keeping the canonical form. -/
def Memory.write : Memory → Nat → Byte → Memory
  | [], a, b => if b = unlistedByte then [] else [(a, b)]
  | (k, c) :: rest, a, b =>
    if a < k then
      if b = unlistedByte then (k, c) :: rest else (a, b) :: (k, c) :: rest
    else if a = k then
      if b = unlistedByte then rest else (a, b) :: rest
    else (k, c) :: Memory.write rest a b

/-- The canonical form: addresses strictly rising, no entry equal to what an unlisted address reads as. -/
abbrev Memory.wf (mem : Memory) : Prop :=
  mem.Pairwise (fun c c' => c.1 < c'.1) ∧ ∀ c ∈ mem, c.2 ≠ unlistedByte

/-- The values byte `a` held earlier in the running hash call, newest first: what racing host stores overwrote. -/
def olderBytes (s : State) (a : Nat) : List Byte :=
  (s.overwritten.filter (fun c => c.1 == a)).map (fun c => c.2)

/-- The byte the engine uses for message address `a`: the stored byte, unless the host overwrote it during this call;
then one of the values it had, which one being a free value (R70 e, R332, U4). Log entry 6. -/
def engineByte (s : State) (a : Nat) : Byte :=
  match olderBytes s a with
  | [] => s.mem.read a
  | older =>
    (s.mem.read a :: older).getD (Config.raceChoice s.calls a % (older.length + 1)) (s.mem.read a)

/-- The host stores a byte (R60). While BUSY = 1 a store below LEN races with the running call (R70 e): the value it
overwrites is kept, so that the engine may use either. -/
def hostStore (addr : Nat) (b : Byte) (s : State) : State :=
  { s with
    mem := s.mem.write addr b
    overwritten :=
      if s.busy && decide (addr < s.len.toNat) then (addr, s.mem.read addr) :: s.overwritten else s.overwritten }

/-! ## Errors: entry and return -/

/-- The codes of R281. -/
def errorCode : CommandError → BitVec 8
  | .digestLengthRange => 1
  | .keyLengthRange => 2
  | .keyedUnsupported => 3
  | .notConfigured => 4
  | .illegalCommand => 5

/-- `raise E(w)` (R290): exactly ERR, ERRCODE and ERRINFO are written. -/
def raise (e : CommandError) (w : BitVec 32) (s : State) : State :=
  { s with err := true, errcode := errorCode e, errinfo := w }

/-- The return from the error state (R257, R293). -/
def clearError (s : State) : State :=
  { s with err := false, errcode := 0, errinfo := 0, ovr := false }

/-- A host write discarded because BUSY = 1 (R250). -/
def discardBusy (s : State) : State := { s with ovr := true }

/-- A write of the command word `w` to CMD in the order of R96: BUSY discard, ERR discard, NotConfigured for the commands
that need a configuration, then the command's own rule. CLR_ERR alone does not come through here. -/
def commandGate (w : BitVec 32) (needsCfg : Bool) (perform : State → State) (s : State) : State :=
  if s.busy then discardBusy s
  else if s.err then s
  else if needsCfg && !s.cfg then raise .notConfigured w s
  else perform s

/-! ## Reset -/

/-- The Reset action (R320), in any state: the engine is as right after reset (R46). The message space and the host are
outside the engine and stay; so does the counter of the free value. Log entry 2. -/
def resetAction (s : State) : State :=
  { State.reset with
    mem := s.mem
    keyPolicy := s.keyPolicy
    agenda := s.agenda
    hostReads := s.hostReads
    calls := s.calls }

end Sys2Proof.Machine
end

