-- ==== Sys2Proof/Machine/Operands.lean ====
section
/-! DEFINITION. Operand selection: the constant tables IV and SIGMA (R41, R42) and QUAD (R181), the message words of the
Block Source (R141 to R143), the parameter block as bytes and as words (R30 to R33, R120 to R122). -/

namespace Sys2Proof.Machine

/-! ## Constants -/

/-- IV[0..7] (R41). Log entry 10. -/
def iv : Vector Word 8 :=
  #v[0x6A09E667F3BCC908, 0xBB67AE8584CAA73B, 0x3C6EF372FE94F82B, 0xA54FF53A5F1D36F1,
     0x510E527FADE682D1, 0x9B05688C2B3E6C1F, 0x1F83D9ABFB41BD6B, 0x5BE0CD19137E2179]

/-- SIGMA, the 12 x 16 permutation schedule (R42); rows 10 and 11 are copies of rows 0 and 1. Log entry 10. -/
def sigmaTable : Vector (Vector (Fin 16) 16) 12 :=
  #v[#v[0, 1, 2, 3, 4, 5, 6, 7, 8, 9, 10, 11, 12, 13, 14, 15],
     #v[14, 10, 4, 8, 9, 15, 13, 6, 1, 12, 0, 2, 11, 7, 5, 3],
     #v[11, 8, 12, 0, 5, 2, 15, 13, 10, 14, 3, 6, 7, 1, 9, 4],
     #v[7, 9, 3, 1, 13, 12, 11, 14, 2, 6, 5, 10, 4, 0, 15, 8],
     #v[9, 0, 5, 7, 2, 4, 10, 15, 14, 1, 11, 12, 6, 8, 3, 13],
     #v[2, 12, 6, 10, 0, 11, 8, 3, 4, 13, 7, 5, 15, 14, 1, 9],
     #v[12, 5, 1, 15, 14, 13, 4, 10, 0, 7, 6, 3, 9, 2, 8, 11],
     #v[13, 11, 7, 14, 12, 1, 3, 9, 5, 0, 15, 4, 8, 6, 2, 10],
     #v[6, 15, 14, 9, 11, 3, 0, 8, 12, 2, 13, 7, 1, 4, 10, 5],
     #v[10, 2, 8, 4, 7, 6, 1, 5, 15, 11, 9, 14, 3, 12, 13, 0],
     #v[0, 1, 2, 3, 4, 5, 6, 7, 8, 9, 10, 11, 12, 13, 14, 15],
     #v[14, 10, 4, 8, 9, 15, 13, 6, 1, 12, 0, 2, 11, 7, 5, 3]]

/-- SIGMA[r][j]: a plain index into the 12-row table, no reduction (R184). -/
def sigma (r : Fin 12) (j : Fin 16) : Fin 16 := sigmaTable[r][j]

/-- Four things named a, b, c, d in the order of G's operands: lane indices, or the words in those lanes. -/
structure Quad (α : Type) where
  a : α
  b : α
  c : α
  d : α
  deriving DecidableEq, Repr

/-- QUAD (R181): the lane quadruple of application `i`; 0 to 3 are the columns, 4 to 7 the diagonals. -/
def quad (i : Fin 8) : Quad (Fin 16) :=
  #v[⟨0, 4, 8, 12⟩, ⟨1, 5, 9, 13⟩, ⟨2, 6, 10, 14⟩, ⟨3, 7, 11, 15⟩,
     ⟨0, 5, 10, 15⟩, ⟨1, 6, 11, 12⟩, ⟨2, 7, 8, 13⟩, ⟨3, 4, 9, 14⟩][i]

/-! ## Message words: the Block Source -/

/-- MSGBYTE (R141): byte `a` of the zero-padded view of a message of `len` bytes. -/
def msgByte (msg : Nat → Byte) (len a : Nat) : Byte := if a < len then msg a else 0#8

/-- WORD (R142): the little-endian word at word position `p`; the address arithmetic does not wrap (R14). -/
def msgWord (msg : Nat → Byte) (len p : Nat) : Word := le64 fun j => msgByte msg len (8 * p + j)

/-- BLOCK (R143): the sixteen words of block `b`. -/
def block (msg : Nat → Byte) (len b : Nat) : Vector Word 16 :=
  Vector.ofFn fun j => msgWord msg len (16 * b + j.val)

/-! ## The parameter block -/

/-- PBLK (R120, R31): byte `n` of the 64-byte parameter block. -/
def pblk (d k : Byte) (salt pers : Nat → Byte) (n : Nat) : Byte :=
  if n = 0 then d
  else if n = 1 then k
  else if n = 2 then 1#8
  else if n = 3 then 1#8
  else if n < 32 then 0#8
  else if n < 48 then salt (n - 32)
  else if n < 64 then pers (n - 48)
  else 0#8

/-- PWORDS (R121): word `k` of a parameter block, packed little-endian. -/
def pword (pb : Nat → Byte) (k : Nat) : Word := le64 fun j => pb (8 * k + j)

/-- H0 (R122): IV xor the parameter block, word by word. -/
def h0 (pb : Nat → Byte) : Vector Word 8 := Vector.ofFn fun k => iv[k] ^^^ pword pb k.val

/-- Byte `j` of a 16-byte value held as two little-endian words (R36, R37). -/
def byteOfPair (w0 w1 : Word) (j : Nat) : Byte := if j < 8 then byteOf w0 j else byteOf w1 (j - 8)

/-- The view PB (R30): the parameter block of the stored fields. -/
def pbView (s : State) : Nat → Byte :=
  pblk s.dlen s.klen (byteOfPair s.salt0 s.salt1) (byteOfPair s.pers0 s.pers1)

end Sys2Proof.Machine
end

