-- ==== Sys2Proof/Machine/Flags.lean ====
section
/-! DEFINITION. Flag and status computations: STATUS (R39), the loop test of CHECK (R216), the range tests of the commands
(R251, R253), the sequencer's successor of a MIX step (R163). No arithmetic operation of the engine sets a flag (R25). -/

namespace Sys2Proof.Machine

/-- One status bit as a bit vector. -/
def bit (b : Bool) : BitVec 1 := BitVec.ofBool b

/-- STATUS (R39): bit 0 BUSY, 1 DONE, 2 CFG, 3 ERR, 4 OVR, bits 15:8 ERRCODE, bits 26:16 SEQ, the other bits zero. -/
def statusWord (s : State) : BitVec 32 :=
  0#5 ++ s.seq ++ s.errcode ++ 0#3 ++ bit s.ovr ++ bit s.err ++ bit s.cfg ++ bit s.done ++ bit s.busy

/-- The loop test `OFFSET + 128 < LEN`, strict and in natural numbers (R216). -/
def moreBlocks (s : State) : Bool := decide (s.offset.toNat + 128 < s.len.toNat)

/-- The digest length is in 1..64 (R34). -/
def digestLengthOk (d : BitVec 8) : Bool := decide (1 ≤ d.toNat) && decide (d.toNat ≤ 64)

/-- The key length is in 0..64 (R35). -/
def keyLengthOk (k : BitVec 8) : Bool := decide (k.toNat ≤ 64)

/-- A nonzero key length under KEY_POLICY = reject (R285). -/
def keyRefused (k : BitVec 8) (policy : KeyPolicy) : Bool := decide (0 < k.toNat) && decide (policy = .reject)

/-- What a MIX step writes to SEQ (R163): the next application, the next round, or FOLD. -/
def mixSuccessor (r : BitVec 4) (i : BitVec 3) : BitVec 11 :=
  if i.toNat < 7 then seqWord .mix r (i + 1)
  else if r.toNat < 11 then seqWord .mix (r + 1) 0
  else seqWord .fold 0 0

end Sys2Proof.Machine
end

