-- ==== Sys2Proof/Machine/BlockSource.lean ====
section
/-! DEFINITION. The meaning of LOAD (41_block_source.md). -/

namespace Sys2Proof.Machine

/-- LOAD (R144): the sixteen words of block BLK, all at once; bytes at or beyond LEN are not read. -/
def execLoad (s : State) : Result :=
  .next { s with
    m := block (engineByte s) s.len.toNat s.blk.toNat
    seq := seqWord .vinit 0 0 }

end Sys2Proof.Machine
end

