-- ==== Sys2Proof/Machine/Commands.lean ====
section
/-! DEFINITION. The meanings of the six host commands (46_host_commands.md): what a HostWrite of the command's word to CMD
does, the decode order of R96 included. -/

namespace Sys2Proof.Machine

/-- INIT performed (R251): the three range tests in order, else the whole configuration is stored. -/
def performInit (d k : BitVec 8) (s : State) : State :=
  if !digestLengthOk d then raise .digestLengthRange (initWord d k) s
  else if !keyLengthOk k then raise .keyLengthRange (initWord d k) s
  else if keyRefused k s.keyPolicy then raise .keyedUnsupported (initWord d k) s
  else
    { s with
      dlen := d, klen := k
      salt0 := s.saltIn0, salt1 := s.saltIn1
      pers0 := s.persIn0, pers1 := s.persIn1
      cfg := true }

/-- SET_DLEN performed (R253). -/
def performSetDlen (n : BitVec 8) (s : State) : State :=
  if !digestLengthOk n then raise .digestLengthRange (setDlenWord n) s else { s with dlen := n }

/-- SET_SALT performed (R254): both words together. -/
def performSetSalt (s : State) : State := { s with salt0 := s.saltIn0, salt1 := s.saltIn1 }

/-- SET_PERS performed (R255): both words together. -/
def performSetPers (s : State) : State := { s with pers0 := s.persIn0, pers1 := s.persIn1 }

/-- HASH performed (R256). The two model's own fields start the call's race record afresh (log entry 6). -/
def performHash (s : State) : State :=
  { s with
    len := s.msgLen, busy := true, done := false, seq := seqWord .start 0 0
    overwritten := [], calls := s.calls + 1 }

def execInit (d k : BitVec 8) (s : State) : Result :=
  .next (commandGate (initWord d k) false (performInit d k) s)

def execSetDlen (n : BitVec 8) (s : State) : Result :=
  .next (commandGate (setDlenWord n) true (performSetDlen n) s)

def execSetSalt (s : State) : Result :=
  .next (commandGate (commandWord 0#8 0#8 0x03#8) true performSetSalt s)

def execSetPers (s : State) : Result :=
  .next (commandGate (commandWord 0#8 0#8 0x04#8) true performSetPers s)

def execHash (s : State) : Result :=
  .next (commandGate (commandWord 0#8 0#8 0x05#8) true performHash s)

/-- CLR_ERR (R257): discarded while BUSY, otherwise performed whatever ERR and CFG are. -/
def execClrErr (s : State) : Result :=
  .next (if s.busy then discardBusy s else clearError s)

end Sys2Proof.Machine
end

