-- ==== Sys2Proof/Machine/Mixing.lean ====
section
/-! DEFINITION. The mixing primitive G and the round (42_mixing_g.md, 43_round.md), and the meaning of MIX. -/

namespace Sys2Proof.Machine

/-- GQ (R160): the eight ARX steps on values, in order. -/
def gq (q : Quad Word) (x y : Word) : Quad Word :=
  let a1 := q.a + q.b + x
  let d1 := rotr64 (q.d ^^^ a1) 32
  let c1 := q.c + d1
  let b1 := rotr64 (q.b ^^^ c1) 24
  let a2 := a1 + b1 + y
  let d2 := rotr64 (d1 ^^^ a2) 16
  let c2 := c1 + d2
  let b2 := rotr64 (b1 ^^^ c2) 63
  ⟨a2, b2, c2, d2⟩

/-- The words of `v` in the four lanes of a quadruple. -/
def lanes (v : Vector Word 16) (q : Quad (Fin 16)) : Quad Word := ⟨v[q.a], v[q.b], v[q.c], v[q.d]⟩

/-- `v` with the four lanes of a quadruple replaced. -/
def setLanes (v : Vector Word 16) (q : Quad (Fin 16)) (w : Quad Word) : Vector Word 16 :=
  (((v.set q.a w.a).set q.b w.b).set q.c w.c).set q.d w.d

/-- The message word x of application `i` in round `r`: M[SIGMA[r][2i]] (R98). -/
def mixX (m : Vector Word 16) (r : Fin 12) (i : Fin 8) : Word := m[sigma r ⟨2 * i.val, by omega⟩]

/-- The message word y of application `i` in round `r`: M[SIGMA[r][2i + 1]] (R98). -/
def mixY (m : Vector Word 16) (r : Fin 12) (i : Fin 8) : Word := m[sigma r ⟨2 * i.val + 1, by omega⟩]

/-- G(r, i) (R163): one application of GQ to the four lanes of QUAD[i]. -/
def gStep (m : Vector Word 16) (r : Fin 12) (i : Fin 8) (v : Vector Word 16) : Vector Word 16 :=
  setLanes v (quad i) (gq (lanes v (quad i)) (mixX m r i) (mixY m r i))

/-- ROUND(r) (R182): the four columns, then the four diagonals. -/
def round (m : Vector Word 16) (r : Fin 12) (v : Vector Word 16) : Vector Word 16 :=
  let columns := gStep m r 3 (gStep m r 2 (gStep m r 1 (gStep m r 0 v)))
  gStep m r 7 (gStep m r 6 (gStep m r 5 (gStep m r 4 columns)))

/-- The MIX step (R163): G(R, I), then the next application. R in 12..15 is never produced (R99). -/
def execMix (r : BitVec 4) (i : BitVec 3) (s : State) : Result :=
  if hr : r.toNat < 12 then
    .next { s with
      v := gStep s.m ⟨r.toNat, hr⟩ i.toFin s.v
      seq := mixSuccessor r i }
  else .fault (.seqNeverProduced (seqWord .mix r i))

end Sys2Proof.Machine
end

