-- ==== Sys2Proof/Machine/Compress.lean ====
section
/-! DEFINITION. The compression function F (44_compress_f.md), and the meanings of VINIT and FOLD. -/

namespace Sys2Proof.Machine

/-- VINIT at function level (R191): H, then IV with lanes 12, 13, 14, 15 xored with t0, t1, f0, f1. -/
def vinit (h : Vector Word 8) (t0 t1 f0 f1 : Word) : Vector Word 16 :=
  #v[h[0], h[1], h[2], h[3], h[4], h[5], h[6], h[7],
     iv[0], iv[1], iv[2], iv[3], iv[4] ^^^ t0, iv[5] ^^^ t1, iv[6] ^^^ f0, iv[7] ^^^ f1]

/-- FOLD at function level (R193): H'[k] = H[k] xor v[k] xor v[k + 8]. -/
def foldWords (h : Vector Word 8) (v : Vector Word 16) : Vector Word 8 :=
  Vector.ofFn fun k => h[k] ^^^ v[k.val] ^^^ v[k.val + 8]

/-- The twelve rounds (R190), row 0 to row 11. -/
def rounds (m : Vector Word 16) (v : Vector Word 16) : Vector Word 16 :=
  ([0, 1, 2, 3, 4, 5, 6, 7, 8, 9, 10, 11] : List (Fin 12)).foldl (fun u r => round m r u) v

/-- F (R190). -/
def compress (h : Vector Word 8) (m : Vector Word 16) (t0 t1 f0 f1 : Word) : Vector Word 8 :=
  foldWords h (rounds m (vinit h t0 t1 f0 f1))

/-- The VINIT step (R191): all sixteen lanes at once. -/
def execVinit (s : State) : Result :=
  .next { s with v := vinit s.h s.t0 s.t1 s.f0 s.f1, seq := seqWord .mix 0 0 }

/-- The FOLD step (R193): all eight words from the old H; FINAL chooses between OUT and NEXT. -/
def execFold (s : State) : Result :=
  .next { s with
    h := foldWords s.h s.v
    seq := if s.final then seqWord .out 0 0 else seqWord .next 0 0 }

end Sys2Proof.Machine
end

