-- ==== Sys2Proof/Machine/Hash.lean ====
section
/-! DEFINITION. The driver as a function: HASHF (R210) and DIGESTOF (R219). -/

namespace Sys2Proof.Machine

/-- The variables of HASHF's loop (R210); `off` and `b` are natural numbers and do not wrap. -/
structure LoopVars where
  h : Vector Word 8
  t0 : Word
  b : Nat
  off : Nat
  deriving DecidableEq, Repr

/-- One pass of HASHF's loop body (R210): a non-terminal block. -/
def loopBody (msg : Nat → Byte) (len : Nat) (x : LoopVars) : LoopVars :=
  { h := compress x.h (block msg len x.b) (x.t0 + 128) 0 0 0
    t0 := x.t0 + 128
    b := x.b + 1
    off := x.off + 128 }

/-- HASHF's loop `while off + 128 < LEN` (R210, R216), bounded by `fuel` passes; `len / 128` passes always suffice
(log entry 14). -/
def hashLoop (msg : Nat → Byte) (len : Nat) : Nat → LoopVars → LoopVars
  | 0, x => x
  | fuel + 1, x => if x.off + 128 < len then hashLoop msg len fuel (loopBody msg len x) else x

/-- The final chaining value of HASHF (R210). -/
def hashWords (d k : Byte) (salt pers : Nat → Byte) (msg : Nat → Byte) (len : Nat) : Vector Word 8 :=
  let x := hashLoop msg len (len / 128) { h := h0 (pblk d k salt pers), t0 := 0, b := 0, off := 0 }
  compress x.h (block msg len x.b) (BitVec.ofNat 64 len) 0 all1 0

/-- BYTES64(H[0]) ++ .. ++ BYTES64(H[7]): the 64 bytes of a chaining value (R218). -/
def digestBytes (h : Vector Word 8) : Vector Byte 64 :=
  Vector.ofFn fun n => byteOf h[n.val / 8] (n.val % 8)

/-- HASHF (R210): the 64 bytes of the final chaining value. -/
def hashf (d k : Byte) (salt pers : Nat → Byte) (msg : Nat → Byte) (len : Nat) : Vector Byte 64 :=
  digestBytes (hashWords d k salt pers msg len)

/-- DIGESTOF (R219): the reported digest, the first `n` bytes. -/
def digestOf (digest : Vector Byte 64) (n : Nat) : List Byte := digest.toList.take n

end Sys2Proof.Machine
end

