-- ==== Sys2Proof/Machine/Driver.lean ====
section
/-! DEFINITION. The meanings of IDLE, START, CHECK, NEXT and OUT (45_driver.md). -/

namespace Sys2Proof.Machine

/-- IDLE (R212): the engine has no step of its own, so its turn changes nothing. Log entry 11. -/
def execIdle (s : State) : Result := .next s

/-- START (R213): H0 of the parameter block as it stands (R124), counter, flags, offset and block index 0. -/
def execStart (s : State) : Result :=
  .next { s with
    h := h0 (pbView s)
    t0 := 0, t1 := 0, f0 := 0, f1 := 0
    offset := 0, blk := 0
    seq := seqWord .check 0 0 }

/-- CHECK (R214, R215): the loop test; counter, flags and FINAL for the block it selects. -/
def execCheck (s : State) : Result :=
  .next (if moreBlocks s then
    { s with t0 := s.t0 + 128, final := false, seq := seqWord .load 0 0 }
  else
    { s with t0 := s.len, f0 := all1, f1 := 0, final := true, seq := seqWord .load 0 0 })

/-- NEXT (R217). -/
def execNext (s : State) : Result :=
  .next { s with blk := s.blk + 1, offset := s.offset + 128, seq := seqWord .check 0 0 }

/-- What OUT delivers: H (R218), unless the host overwrote message bytes during the call; then the chaining value of some
mixture of the values those bytes had (R332), the mixture being a free value. Log entry 6. -/
def callResult (s : State) : Vector Word 8 :=
  if s.overwritten.isEmpty then s.h
  else hashWords s.dlen s.klen (byteOfPair s.salt0 s.salt1) (byteOfPair s.pers0 s.pers1) (engineByte s) s.len.toNat

/-- OUT (R218). -/
def execOut (s : State) : Result :=
  .next { s with
    digest := digestBytes (callResult s)
    outLen := s.dlen
    busy := false, done := true
    overwritten := []
    seq := seqWord .idle 0 0 }

end Sys2Proof.Machine
end

