-- ==== Sys2Proof/Machine/Dispatch.lean ====
section
/-! DEFINITION. One arm per row of opcode_table.json. -/

namespace Sys2Proof.Machine

def exec (i : Instr) (s : State) : Host.Outcome State Fault Refusal :=
  match i with
  -- host commands (46_host_commands.md)
  | .init d k => Sys2Proof.Machine.execInit d k s
  | .setDlen n => Sys2Proof.Machine.execSetDlen n s
  | .setSalt => Sys2Proof.Machine.execSetSalt s
  | .setPers => Sys2Proof.Machine.execSetPers s
  | .hash => Sys2Proof.Machine.execHash s
  | .clrErr => Sys2Proof.Machine.execClrErr s
  -- sequencer steps (45_driver.md R211)
  | .idle => Sys2Proof.Machine.execIdle s
  | .start => Sys2Proof.Machine.execStart s
  | .check => Sys2Proof.Machine.execCheck s
  | .load => Sys2Proof.Machine.execLoad s
  | .vinit => Sys2Proof.Machine.execVinit s
  | .mix r j => Sys2Proof.Machine.execMix r j s
  | .fold => Sys2Proof.Machine.execFold s
  | .next => Sys2Proof.Machine.execNext s
  | .out => Sys2Proof.Machine.execOut s

end Sys2Proof.Machine
end

