-- ==== Sys2Proof/Machine/HostActions.lean ====
section
/-! DEFINITION. The host's actions (30_encoding.md R92, 10_state.md R39) and which turn comes next. -/

namespace Sys2Proof.Machine

/-- DIGEST[n]. -/
def digestByte (digest : Vector Byte 64) (n : Nat) : Byte := if h : n < 64 then digest[n] else 0#8

/-- Word `k` of DIGEST as the registers DIGEST0..DIGEST7 show it: LE64(DIGEST[8k] .. DIGEST[8k + 7]) (R39). -/
def digestWord (digest : Vector Byte 64) (k : Nat) : Word :=
  le64 fun j => digestByte digest (8 * k + j)

/-- The width of a register (R39); reserved numbers carry 64 bits. -/
def regWidth (reg : Nat) : Nat :=
  if reg = 0 ∨ reg = 1 ∨ reg = 2 then 32 else if reg = 3 then 8 else 64

/-- The contents of a register as HostRead returns them (R39): CMD and the reserved numbers read 0. -/
def readRegister (s : State) (reg : Nat) : BitVec 64 :=
  if reg = 1 then (statusWord s).setWidth 64
  else if reg = 2 then s.errinfo.setWidth 64
  else if reg = 3 then s.outLen.setWidth 64
  else if reg = 4 then s.saltIn0
  else if reg = 5 then s.saltIn1
  else if reg = 6 then s.persIn0
  else if reg = 7 then s.persIn1
  else if reg = 8 then s.msgLen
  else if 16 ≤ reg ∧ reg < 24 then pword (pbView s) (reg - 16)
  else if 24 ≤ reg ∧ reg < 32 then digestWord s.digest (reg - 24)
  else 0

/-- HostRead (R92): the value goes to the host, the engine is unchanged. -/
def hostRead (reg : Nat) (s : State) : State :=
  { s with hostReads := (reg, readRegister s reg) :: s.hostReads }

/-- HostWrite to a register other than CMD (R92, R250, R258): discarded with OVR while BUSY = 1; a staging register takes
the value; a read-only or reserved register discards it. -/
def writeRegister (reg : Nat) (value : BitVec 64) (s : State) : State :=
  if s.busy then discardBusy s
  else if reg = 4 then { s with saltIn0 := value }
  else if reg = 5 then { s with saltIn1 := value }
  else if reg = 6 then { s with persIn0 := value }
  else if reg = 7 then { s with persIn1 := value }
  else if reg = 8 then { s with msgLen := value }
  else s

/-- A write to CMD of a word that is no command (R95, R96): IllegalCommand, behind the two discards (R286). -/
def illegalCommand (w : BitVec 32) (s : State) : State :=
  commandGate w false (raise .illegalCommand w) s

/-- HostWrite (R92): a value wider than the register is refused (U10, log entry 8); CMD decodes its word. -/
def fetchWrite (reg : Nat) (value : BitVec 64) (s : State) : Fetched :=
  if 2 ^ regWidth reg ≤ value.toNat then .ends (.refused (.hostValueTooWide reg value))
  else if reg = 0 then
    match decodeCommand (value.setWidth 32) with
    | .ok i => .runs i
    | .error _ => .ends (.next (illegalCommand (value.setWidth 32) s))
  else .ends (.next (writeRegister reg value s))

/-- The engine's turn: the operation SEQ selects (R97); a value that is never produced is a fault (R99, log entry 7). -/
def fetchEngine (s : State) : Fetched :=
  match decodeSeq s.seq with
  | .ok i => .runs i
  | .error _ => .ends (.fault (.seqNeverProduced s.seq))

/-- The turn that comes next: an empty agenda leaves every turn to the engine (R338, log entry 3). -/
def nextTurn (s : State) : Turn := s.agenda.headD .engine

/-- The state in which that turn is taken: it has left the agenda. -/
def afterTurn (s : State) : State := { s with agenda := s.agenda.tail }

/-- What a turn comes to in the state it is taken in. -/
def fetchTurn (turn : Turn) (s : State) : Fetched :=
  match turn with
  | .engine => fetchEngine s
  | .write reg value => fetchWrite reg value s
  | .read reg => .ends (.next (hostRead reg s))
  | .store addr b => .ends (.next (hostStore addr.toNat b s))
  | .reset => .ends (.next (resetAction s))

end Sys2Proof.Machine
end

