-- ==== Sys2Proof/Machine/Step.lean ====
section
/-! DEFINITION. One step of the machine: the next turn of the agenda, an instruction being run by exec. -/

namespace Sys2Proof.Machine

/-- One step: the turn that comes next, in the state with that turn taken off the agenda. -/
def step (s : State) : Host.Outcome State Fault Refusal :=
  match fetchTurn (nextTurn s) (afterTurn s) with
  | .runs i => exec i (afterTurn s)
  | .ends r => r

/-- The state whose very next step runs the instruction whose bits are `w`: a row of 32 bits is a HostWrite of `w` to CMD,
put at the head of the agenda; a row of 11 bits (16 in whole bytes) is put into SEQ and the engine has the next turn.
Log entry 12. -/
def State.withFetchWord (s : State) (nbits w : Nat) : State :=
  if nbits ≤ 16 then { s with seq := BitVec.ofNat 11 w, agenda := .engine :: s.agenda }
  else { s with agenda := .write 0 (BitVec.ofNat 64 w) :: s.agenda }

end Sys2Proof.Machine
end

