-- ==== Sys2Proof/Safety.lean ====
section
/-! DEFINITION. What counts as a sound state, in the terms the claims use: the invariants of 10_state.md R47, the legal
sequencer values (R99), the canonical memory. -/

namespace Sys2Proof.Machine

/-- PHASE, bits 10:7 of SEQ (R27). -/
def phaseOf (s : State) : BitVec 4 := s.seq.extractLsb' 7 4

/-- SEQ is one of the values the transition table can produce (R97, R99). -/
def seqProduced (w : BitVec 11) : Bool :=
  match decodeSeq w with
  | .ok _ => true
  | .error _ => false

/-- The six instructions that are host commands (R94). -/
def isCommand : Instr → Bool
  | .init _ _ | .setDlen _ | .setSalt | .setPers | .hash | .clrErr => true
  | .idle | .start | .check | .load | .vinit | .mix _ _ | .fold | .next | .out => false

/-- A legal command word: it matches a row of R94 under that row's mask (R95). -/
abbrev LegalCommandWord (w : BitVec 32) : Prop :=
  w &&& 0xFF0000FF#32 = 0x00000001#32 ∨ w &&& 0xFFFF00FF#32 = 0x00000002#32 ∨ w = 0x00000003#32 ∨
  w = 0x00000004#32 ∨ w = 0x00000005#32 ∨ w = 0x00000006#32

/-- The turn is a HostWrite to CMD of the word `w` (R92). -/
abbrev WritesCommand (s : State) (w : BitVec 32) : Prop := nextTurn s = .write 0 (w.setWidth 64)

/-- The turn is a HostWrite of the command word CLR_ERR that is performed: BUSY = 0 (R257). -/
abbrev ClearsError (s : State) : Prop := s.busy = false ∧ WritesCommand s 0x00000006#32

/-- BUSY = 0 and ERR = 0: the state in which a command is decoded and performed (R96). -/
abbrev Accepting (s : State) : Prop := s.busy = false ∧ s.err = false

/-- R47 (a), and what KEY_POLICY = reject adds (R35). -/
abbrev ConfigLegal (s : State) : Prop :=
  s.cfg = true →
    1 ≤ s.dlen.toNat ∧ s.dlen.toNat ≤ 64 ∧ s.klen.toNat ≤ 64 ∧ (s.keyPolicy = .reject → s.klen = 0#8)

/-- R47 (b): BUSY = 1 exactly when PHASE is not IDLE. -/
abbrev BusyIffRunning (s : State) : Prop := s.busy = true ↔ s.seq ≠ seqWord .idle 0 0

/-- R47 (c). -/
abbrev BusyConfigured (s : State) : Prop := s.busy = true → s.cfg = true ∧ s.done = false

/-- ERR = 1 with a code of R281, or no error pending with ERRCODE and ERRINFO 0. -/
abbrev ErrorRecorded (s : State) : Prop :=
  (s.err = false → s.errcode = 0#8 ∧ s.errinfo = 0#32) ∧
  (s.err = true → 1 ≤ s.errcode.toNat ∧ s.errcode.toNat ≤ 5)

/-- Counter, flags and FINAL of the block CHECK selected (R214, R215, R25). -/
abbrev BlockSelected (s : State) : Prop :=
  if s.final then
    s.t0 = s.len ∧ s.f0 = all1 ∧ s.len.toNat ≤ s.offset.toNat + 128
  else
    s.t0.toNat = s.offset.toNat + 128 ∧ s.f0 = 0#64 ∧ s.offset.toNat + 128 < s.len.toNat

/-- R47 (e), (g) and the driver's registers (R28): what holds in each phase of a hash call. -/
abbrev CallProgress (s : State) : Prop :=
  (2 ≤ (phaseOf s).toNat →
    s.t1 = 0#64 ∧ s.f1 = 0#64 ∧ s.offset.toNat = 128 * s.blk.toNat ∧ s.offset.toNat ≤ s.len.toNat) ∧
  ((phaseOf s).toNat = 2 →
    s.t0 = s.offset ∧ s.f0 = 0#64 ∧ (s.offset = 0#64 ∨ s.offset.toNat < s.len.toNat)) ∧
  (3 ≤ (phaseOf s).toNat → BlockSelected s) ∧
  ((phaseOf s).toNat = 7 → s.final = false) ∧
  ((phaseOf s).toNat = 8 → s.final = true)

/-- The invariant of the machine: R47, the legal SEQ values, the error record, the canonical memory. -/
structure Sound (s : State) : Prop where
  config : ConfigLegal s
  produced : seqProduced s.seq = true
  running : BusyIffRunning s
  configured : BusyConfigured s
  recorded : ErrorRecorded s
  progress : CallProgress s
  quiet : s.busy = false → s.overwritten = []
  memory : Memory.wf s.mem

/-- Two states hold the same engine: every register the spec names is equal; the message space, the agenda and the model's
own fields may differ. -/
abbrev SameEngine (s t : State) : Prop :=
  s.h = t.h ∧ s.v = t.v ∧ s.m = t.m ∧ s.t0 = t.t0 ∧ s.t1 = t.t1 ∧ s.f0 = t.f0 ∧ s.f1 = t.f1 ∧ s.final = t.final ∧
  s.seq = t.seq ∧ s.len = t.len ∧ s.offset = t.offset ∧ s.blk = t.blk ∧ s.dlen = t.dlen ∧ s.klen = t.klen ∧
  s.salt0 = t.salt0 ∧ s.salt1 = t.salt1 ∧ s.pers0 = t.pers0 ∧ s.pers1 = t.pers1 ∧
  s.saltIn0 = t.saltIn0 ∧ s.saltIn1 = t.saltIn1 ∧ s.persIn0 = t.persIn0 ∧ s.persIn1 = t.persIn1 ∧
  s.msgLen = t.msgLen ∧ s.busy = t.busy ∧ s.done = t.done ∧ s.cfg = t.cfg ∧ s.err = t.err ∧ s.ovr = t.ovr ∧
  s.errcode = t.errcode ∧ s.errinfo = t.errinfo ∧ s.digest = t.digest ∧ s.outLen = t.outLen

/-- The configuration and the staging registers of two states are equal (R38, R47 d). -/
abbrev SameConfiguration (s t : State) : Prop :=
  s.dlen = t.dlen ∧ s.klen = t.klen ∧ s.salt0 = t.salt0 ∧ s.salt1 = t.salt1 ∧ s.pers0 = t.pers0 ∧ s.pers1 = t.pers1 ∧
  s.saltIn0 = t.saltIn0 ∧ s.saltIn1 = t.saltIn1 ∧ s.persIn0 = t.persIn0 ∧ s.persIn1 = t.persIn1 ∧ s.msgLen = t.msgLen

/-- The data registers of a hash call that no command touches (R259). -/
abbrev SameDataRegisters (s t : State) : Prop :=
  s.h = t.h ∧ s.v = t.v ∧ s.m = t.m ∧ s.t0 = t.t0 ∧ s.t1 = t.t1 ∧ s.f0 = t.f0 ∧ s.f1 = t.f1 ∧ s.final = t.final ∧
  s.offset = t.offset ∧ s.blk = t.blk

/-- Two states are in the same place of a hash call (R337): SEQ and LEN are equal, OFFSET from CHECK on (START clears it),
FINAL from LOAD on (CHECK writes it). -/
abbrev SamePlace (s t : State) : Prop :=
  s.seq = t.seq ∧ s.len = t.len ∧ (2 ≤ (phaseOf s).toNat → s.offset = t.offset) ∧
  (3 ≤ (phaseOf s).toNat → s.final = t.final)

/-- The number of compressions of a message of `len` bytes: max(1, ceil(len / 128)) (R221). -/
def compressions (len : Nat) : Nat := max 1 ((len + 127) / 128)

/-- `n` steps, stopping at the first fault or refusal. -/
def stepN : Nat → State → Result
  | 0, s => .next s
  | n + 1, s =>
    match step s with
    | .next t => stepN n t
    | .fault r => .fault r
    | .refused r => .refused r

/-- The state right after a HASH command was accepted with no host turn to come (R226): SEQ at START, BUSY. -/
abbrev HashAccepted (s : State) : Prop :=
  s.seq = seqWord .start 0 0 ∧ s.busy = true ∧ s.agenda = [] ∧ s.overwritten = []

end Sys2Proof.Machine
end

