-- ==== Sys2Proof/Certificates/Slice0/Obligations.lean ====
section
/-! DEFINITION. The statements for the provers, from the numbered rules of the spec. -/

open Sys2Proof Sys2Proof.Machine

/-! ## Encoding -/

/-- R94, R97: decoding an encoded well-formed instruction gives it back, every operand at every value. -/
def Obligations.DecodeOfEncodedInstruction : Prop :=
  ∀ i : Instr, wellFormed i = true → decode (encode i) = .ok i

/-- R94, R97: each word has one meaning; a word that decodes is the encoding of what it decodes to. -/
def Obligations.EncodeOfDecodedWord : Prop :=
  ∀ (e : Encoded) (i : Instr), decode e = .ok i → wellFormed i = true ∧ encode i = e

/-- R95: a command word is legal exactly when it matches a row of R94 under that row's mask. -/
def Obligations.LegalCommandWordsMatchARow : Prop :=
  ∀ w : BitVec 32, (∃ i, decodeCommand w = .ok i) ↔ LegalCommandWord w

/-- R99: the sequencer words that are produced: PHASE 0 to 8; R at most 11 in MIX; R = I = 0 outside MIX. -/
def Obligations.ProducedSequencerWords : Prop :=
  ∀ (p r : BitVec 4) (i : BitVec 3),
    seqProduced (p ++ r ++ i) = true ↔
      p.toNat ≤ 8 ∧ (p = 5#4 → r.toNat ≤ 11) ∧ (p ≠ 5#4 → r = 0#4 ∧ i = 0#3)

/-- Words written out from 95_test_vectors.md section 8.1 decode to the instructions they stand for. -/
def Obligations.ListedWordsDecode : Prop :=
  decodeCommand 0x00404001#32 = .ok (.init 64 64) ∧ decodeCommand 0x00051401#32 = .ok (.init 20 5) ∧
  decodeCommand 0x00001002#32 = .ok (.setDlen 16) ∧ decodeCommand 0x00000005#32 = .ok .hash ∧
  decodeSeq 0x080#11 = .ok .start ∧ decodeSeq 0x29D#11 = .ok (.mix 3 5) ∧ decodeSeq 0x2DF#11 = .ok (.mix 11 7) ∧
  decodeSeq 0x400#11 = .ok .out

/-! ## A step -/

/-- On the engine's turn, when SEQ decodes to `i`, the step is exec of `i` on the state with that turn off the agenda. -/
def Obligations.EngineTurnRunsDecodedStep : Prop :=
  ∀ (s : State) (i : Instr), nextTurn s = .engine → decodeSeq s.seq = .ok i →
    step s = exec i { s with agenda := s.agenda.tail }

/-- R92: on a HostWrite to CMD of a word that decodes to `i`, the step is exec of `i` on the state with that turn off the
agenda. -/
def Obligations.CommandWriteRunsDecodedCommand : Prop :=
  ∀ (s : State) (w : BitVec 32) (i : Instr), WritesCommand s w → decodeCommand w = .ok i →
    step s = exec i { s with agenda := s.agenda.tail }

/-- R286: with BUSY = 0 and ERR = 0 a word that is no command raises IllegalCommand: ERR, ERRCODE = 5 and ERRINFO = the
word, nothing else. -/
def Obligations.IllegalWordRaisesIllegalCommand : Prop :=
  ∀ (s : State) (w : BitVec 32), Accepting s → WritesCommand s w → ¬ LegalCommandWord w →
    step s = .next { s with agenda := s.agenda.tail, err := true, errcode := 5#8, errinfo := w }

/-- R99 ("treat as a fault if ever met"): the engine's turn at a SEQ value that is never produced is a fault, and so is a
MIX step with a round index of 12 to 15 (log entry 7). -/
def Obligations.NeverProducedSequencerWordFaults : Prop :=
  (∀ s : State, nextTurn s = .engine → seqProduced s.seq = false → step s = .fault (.seqNeverProduced s.seq)) ∧
  (∀ (r : BitVec 4) (i : BitVec 3) (s : State), 12 ≤ r.toNat →
    exec (.mix r i) s = .fault (.seqNeverProduced (seqWord .mix r i)))

/-- R92, U10: a HostWrite whose value is wider than its register is refused (model's choice, log entry 8). -/
def Obligations.TooWideHostValueIsRefused : Prop :=
  ∀ (s : State) (reg : Nat) (v : BitVec 64), nextTurn s = .write reg v →
    ((reg ≤ 2 ∧ 2 ^ 32 ≤ v.toNat) ∨ (reg = 3 ∧ 2 ^ 8 ≤ v.toNat)) →
    step s = .refused (.hostValueTooWide reg v)

/-! ## Host actions on registers and on the message space -/

/-- R250: while BUSY = 1 every HostWrite is discarded and sets OVR, a HostRead leaves the engine as it is at any time, and
OVR stays set until CLR_ERR (or Reset). -/
def Obligations.HostWritesWhileBusyAreDiscarded : Prop :=
  (∀ (s : State) (reg : Nat) (v : BitVec 64), s.busy = true → nextTurn s = .write reg v → v.toNat < 2 ^ regWidth reg →
    step s = .next { s with agenda := s.agenda.tail, ovr := true }) ∧
  (∀ (s : State) (reg : Nat), nextTurn s = .read reg →
    step s = .next { s with agenda := s.agenda.tail, hostReads := (reg, readRegister s reg) :: s.hostReads }) ∧
  (∀ s t : State, s.ovr = true → step s = .next t → nextTurn s ≠ .reset → ¬ ClearsError s → t.ovr = true)

/-- R258: a HostWrite to a staging register with BUSY = 0 stores the value there and changes nothing else, whatever ERR and
CFG are; no instruction writes a staging register. -/
def Obligations.StagingWritesStore : Prop :=
  (∀ (s : State) (v : BitVec 64), s.busy = false →
    (nextTurn s = .write 4 v → step s = .next { s with agenda := s.agenda.tail, saltIn0 := v }) ∧
    (nextTurn s = .write 5 v → step s = .next { s with agenda := s.agenda.tail, saltIn1 := v }) ∧
    (nextTurn s = .write 6 v → step s = .next { s with agenda := s.agenda.tail, persIn0 := v }) ∧
    (nextTurn s = .write 7 v → step s = .next { s with agenda := s.agenda.tail, persIn1 := v }) ∧
    (nextTurn s = .write 8 v → step s = .next { s with agenda := s.agenda.tail, msgLen := v })) ∧
  (∀ (i : Instr) (s t : State), exec i s = .next t →
    t.saltIn0 = s.saltIn0 ∧ t.saltIn1 = s.saltIn1 ∧ t.persIn0 = s.persIn0 ∧ t.persIn1 = s.persIn1 ∧ t.msgLen = s.msgLen)

/-- R92, R39: with BUSY = 0 a HostWrite to a read-only or reserved register is discarded with no other effect. -/
def Obligations.ReadOnlyAndReservedWritesAreDiscarded : Prop :=
  ∀ (s : State) (reg : Nat) (v : BitVec 64), s.busy = false → nextTurn s = .write reg v → v.toNat < 2 ^ regWidth reg →
    (1 ≤ reg ∧ reg ≤ 3 ∨ 9 ≤ reg) → step s = .next { s with agenda := s.agenda.tail }

/-- R39: what each register number reads, STATUS field by field; CMD and the reserved numbers read 0. -/
def Obligations.RegisterMapReads : Prop :=
  ∀ s : State,
    readRegister s 0 = 0#64 ∧
    (∀ b : Nat, (readRegister s 1).getLsbD b =
      if b = 0 then s.busy else if b = 1 then s.done else if b = 2 then s.cfg else if b = 3 then s.err
      else if b = 4 then s.ovr else if b < 8 then false else if b < 16 then s.errcode.getLsbD (b - 8)
      else if b < 27 then s.seq.getLsbD (b - 16) else false) ∧
    readRegister s 2 = s.errinfo.setWidth 64 ∧ readRegister s 3 = s.outLen.setWidth 64 ∧
    readRegister s 4 = s.saltIn0 ∧ readRegister s 5 = s.saltIn1 ∧ readRegister s 6 = s.persIn0 ∧
    readRegister s 7 = s.persIn1 ∧ readRegister s 8 = s.msgLen ∧
    (∀ k : Fin 8, readRegister s (16 + k.val) = pword (pbView s) k.val) ∧
    (∀ (k : Fin 8) (j : Fin 8), byteOf (readRegister s (24 + k.val)) j.val = s.digest[8 * k.val + j.val]) ∧
    (∀ reg : Nat, (9 ≤ reg ∧ reg ≤ 15 ∨ 32 ≤ reg) → readRegister s reg = 0#64)

/-- R32: the parameter block word by word, in terms of the stored fields. -/
def Obligations.ParameterBlockWords : Prop :=
  ∀ s : State,
    (pword (pbView s) 0).toNat = 0x0000000001010000 + 256 * s.klen.toNat + s.dlen.toNat ∧
    pword (pbView s) 1 = 0#64 ∧ pword (pbView s) 2 = 0#64 ∧ pword (pbView s) 3 = 0#64 ∧
    pword (pbView s) 4 = s.salt0 ∧ pword (pbView s) 5 = s.salt1 ∧
    pword (pbView s) 6 = s.pers0 ∧ pword (pbView s) 7 = s.pers1

/-- R60, R70: a host store puts one byte into the message space and leaves every other byte and the whole engine as they
were, BUSY or not. -/
def Obligations.HostStoreWritesOneByte : Prop :=
  ∀ (s : State) (addr : BitVec 64) (b : Byte), Memory.wf s.mem → nextTurn s = .store addr b →
    ∃ t, step s = .next t ∧ SameEngine t s ∧ Memory.wf t.mem ∧
      (∀ a : Nat, t.mem.read a = if a = addr.toNat then b else s.mem.read a) ∧
      (s.busy = false → t.overwritten = s.overwritten)

/-- R70 (e), R332, U4: the byte the engine uses for a message address is the stored byte or one the host overwrote during the
running call, and a racing store keeps the byte it overwrites; which of them is used is a free value (log entry 6). -/
def Obligations.RacedByteIsOldOrNew : Prop :=
  (∀ (s : State) (a : Nat), engineByte s a = s.mem.read a ∨ (a, engineByte s a) ∈ s.overwritten) ∧
  (∀ (s : State) (addr : BitVec 64) (b : Byte), s.busy = true → addr.toNat < s.len.toNat → nextTurn s = .store addr b →
    ∃ t, step s = .next t ∧ t.overwritten = (addr.toNat, s.mem.read addr.toNat) :: s.overwritten)

/-- R320, R321: the Reset action, in any state: SEQ in IDLE, the flags and error registers clear, and what the registers
with a specified reset value read. -/
def Obligations.ResetLeavesSpecifiedValues : Prop :=
  ∀ s : State, nextTurn s = .reset →
    ∃ t, step s = .next t ∧ t.seq = seqWord .idle 0 0 ∧
      t.busy = false ∧ t.done = false ∧ t.cfg = false ∧ t.err = false ∧ t.ovr = false ∧ t.errcode = 0#8 ∧
      readRegister t 1 = 0#64 ∧ readRegister t 2 = 0#64 ∧
      (∀ k : Fin 5, readRegister t (4 + k.val) = 0#64) ∧
      readRegister t 17 = 0#64 ∧ readRegister t 18 = 0#64 ∧ readRegister t 19 = 0#64 ∧
      (readRegister t 16).extractLsb' 16 48 = 0x0101#48

/-- Model's choice (log entry 2): the Reset action changes no byte of the message space and not KEY_POLICY, which lie outside
the state R46 lists, and takes nothing off the agenda but its own turn. -/
def Obligations.ResetKeepsTheOutside : Prop :=
  ∀ s : State, nextTurn s = .reset →
    ∃ t, step s = .next t ∧ (∀ a : Nat, t.mem.read a = s.mem.read a) ∧ t.keyPolicy = s.keyPolicy ∧
      t.agenda = s.agenda.tail

/-! ## Host commands -/

/-- R96 (case 1), R250: every command presented while BUSY = 1 is discarded and sets OVR. -/
def Obligations.CommandsWhileBusySetOverrun : Prop :=
  ∀ (i : Instr) (s : State), isCommand i = true → s.busy = true → exec i s = .next { s with ovr := true }

/-- R292: while ERR = 1 (and BUSY = 0) every write to CMD other than CLR_ERR is discarded with no state change, legal word or
not, and writes to the staging registers are still performed. -/
def Obligations.ErrorStateDiscardsCommands : Prop :=
  (∀ (s : State) (w : BitVec 32), s.busy = false → s.err = true → WritesCommand s w → w ≠ 0x00000006#32 →
    step s = .next { s with agenda := s.agenda.tail }) ∧
  (∀ (s : State) (reg : Nat) (v : BitVec 64), s.busy = false → s.err = true → 4 ≤ reg → reg ≤ 8 →
    nextTurn s = .write reg v → ∃ t, step s = .next t ∧ readRegister t reg = v ∧ t.err = true)

/-- R287: SET_DLEN (whatever n), SET_SALT, SET_PERS and HASH with CFG = 0 raise NotConfigured, with their own word. -/
def Obligations.UnconfiguredCommandsRaiseNotConfigured : Prop :=
  ∀ (i : Instr) (w : BitVec 32) (s : State), Accepting s → s.cfg = false → encode i = .command w →
    ((∃ n, i = .setDlen n) ∨ i = .setSalt ∨ i = .setPers ∨ i = .hash) →
    exec i s = .next { s with err := true, errcode := 4#8, errinfo := w }

/-- R251: INIT with BUSY = 0 and ERR = 0, CFG 0 or 1: the three range tests in order, each raising its error with the command
word and storing nothing; otherwise the whole configuration is stored and CFG set, and nothing else changes. -/
def Obligations.InitChecksThenStores : Prop :=
  ∀ (d k : BitVec 8) (s : State), Accepting s →
    ∃ w : BitVec 32, encode (.init d k) = .command w ∧ w.toNat = 1 + 256 * d.toNat + 65536 * k.toNat ∧
      (d.toNat < 1 ∨ 64 < d.toNat →
        exec (.init d k) s = .next { s with err := true, errcode := 1#8, errinfo := w }) ∧
      (1 ≤ d.toNat → d.toNat ≤ 64 → 64 < k.toNat →
        exec (.init d k) s = .next { s with err := true, errcode := 2#8, errinfo := w }) ∧
      (1 ≤ d.toNat → d.toNat ≤ 64 → 1 ≤ k.toNat → k.toNat ≤ 64 → s.keyPolicy = .reject →
        exec (.init d k) s = .next { s with err := true, errcode := 3#8, errinfo := w }) ∧
      (1 ≤ d.toNat → d.toNat ≤ 64 → k.toNat ≤ 64 → (k = 0#8 ∨ s.keyPolicy = .storeOnly) →
        exec (.init d k) s = .next { s with
          dlen := d, klen := k, salt0 := s.saltIn0, salt1 := s.saltIn1, pers0 := s.persIn0, pers1 := s.persIn1,
          cfg := true })

/-- R253: SET_DLEN with BUSY = 0, ERR = 0, CFG = 1: the range test, else DLEN is stored and nothing else changes. -/
def Obligations.SetDlenChecksThenStores : Prop :=
  ∀ (n : BitVec 8) (s : State), Accepting s → s.cfg = true →
    ∃ w : BitVec 32, encode (.setDlen n) = .command w ∧ w.toNat = 2 + 256 * n.toNat ∧
      (n.toNat < 1 ∨ 64 < n.toNat →
        exec (.setDlen n) s = .next { s with err := true, errcode := 1#8, errinfo := w }) ∧
      (1 ≤ n.toNat → n.toNat ≤ 64 → exec (.setDlen n) s = .next { s with dlen := n })

/-- R254: SET_SALT takes both staging words together and changes nothing else. -/
def Obligations.SetSaltTakesStagedSalt : Prop :=
  encode .setSalt = .command 0x00000003#32 ∧
  ∀ s : State, Accepting s → s.cfg = true →
    exec .setSalt s = .next { s with salt0 := s.saltIn0, salt1 := s.saltIn1 }

/-- R255: SET_PERS takes both staging words together and changes nothing else. -/
def Obligations.SetPersTakesStagedPersonalization : Prop :=
  encode .setPers = .command 0x00000004#32 ∧
  ∀ s : State, Accepting s → s.cfg = true →
    exec .setPers s = .next { s with pers0 := s.persIn0, pers1 := s.persIn1 }

/-- R256: HASH latches the length and starts the sequencer; the last two fields are the model's own record of racing host
stores (log entry 6). -/
def Obligations.HashStartsTheCall : Prop :=
  encode .hash = .command 0x00000005#32 ∧
  ∀ s : State, Accepting s → s.cfg = true →
    exec .hash s = .next { s with
      len := s.msgLen, busy := true, done := false, seq := 0x080#11, overwritten := [], calls := s.calls + 1 }

/-- R257: CLR_ERR with BUSY = 0, whatever ERR and CFG are; it is the only command performed while ERR = 1. -/
def Obligations.ClrErrLeavesTheErrorState : Prop :=
  encode .clrErr = .command 0x00000006#32 ∧
  (∀ s : State, s.busy = false →
    exec .clrErr s = .next { s with err := false, errcode := 0#8, errinfo := 0#32, ovr := false }) ∧
  (∀ (i : Instr) (s : State), isCommand i = true → i ≠ .clrErr → s.busy = false → s.err = true → exec i s = .next s)

/-- R259: the frame of the commands. -/
def Obligations.CommandFrame : Prop :=
  ∀ (i : Instr) (s t : State), isCommand i = true → exec i s = .next t →
    SameDataRegisters t s ∧ (i ≠ .hash → t.len = s.len ∧ t.seq = s.seq) ∧
    t.digest = s.digest ∧ t.outLen = s.outLen ∧ (∀ a : Nat, t.mem.read a = s.mem.read a) ∧
    (s.err = false → t.err = true →
      t = { s with err := true, errcode := t.errcode, errinfo := t.errinfo })

/-- R280, R290: an error is raised only by a command word written to CMD, and it changes exactly ERR, ERRCODE (a code of R281)
and ERRINFO (that word). -/
def Obligations.ErrorEntryIsExact : Prop :=
  ∀ s t : State, s.err = false → step s = .next t → t.err = true →
    s.busy = false ∧ ∃ (w : BitVec 32) (e : CommandError), WritesCommand s w ∧
      t = { s with agenda := s.agenda.tail, err := true, errcode := errorCode e, errinfo := w }

/-! ## Sequencer steps -/

/-- R212: in IDLE the engine's turn changes nothing (log entry 11). -/
def Obligations.IdleChangesNothing : Prop :=
  (∀ s : State, exec .idle s = .next s) ∧
  (∀ s : State, nextTurn s = .engine → s.seq = 0x000#11 → step s = .next { s with agenda := s.agenda.tail })

/-- R213: START sets H to H0 of the parameter block as it stands and clears counter, flags, offset and block index. -/
def Obligations.StartInitialisesTheCall : Prop :=
  ∀ s : State,
    exec .start s = .next { s with
      h := #v[iv[0] ^^^ (0x0000000001010000#64 + 256#64 * s.klen.setWidth 64 + s.dlen.setWidth 64), iv[1], iv[2], iv[3],
              iv[4] ^^^ s.salt0, iv[5] ^^^ s.salt1, iv[6] ^^^ s.pers0, iv[7] ^^^ s.pers1]
      t0 := 0#64, t1 := 0#64, f0 := 0#64, f1 := 0#64
      offset := 0#64, blk := 0#57
      seq := 0x100#11 }

/-- R214, R215, R216: CHECK's strict, non-wrapping loop test and what each branch writes. -/
def Obligations.CheckSelectsTheBlock : Prop :=
  ∀ s : State,
    (s.offset.toNat + 128 < s.len.toNat →
      exec .check s = .next { s with t0 := s.t0 + 128#64, final := false, seq := 0x180#11 }) ∧
    (s.len.toNat ≤ s.offset.toNat + 128 →
      exec .check s = .next { s with
        t0 := s.len, f0 := 0xFFFFFFFFFFFFFFFF#64, f1 := 0#64, final := true, seq := 0x180#11 })

/-- R144: LOAD fills M with the sixteen little-endian words of block BLK, zero beyond LEN, and changes SEQ only besides. The
bytes are those of the message space when no host store raced with the call. -/
def Obligations.LoadFillsTheBlockBuffer : Prop :=
  ∀ s : State, ∃ t, exec .load s = .next t ∧ t = { s with m := t.m, seq := 0x200#11 } ∧
    (∀ (j : Fin 16) (n : Fin 8), byteOf t.m[j] n.val =
      if 128 * s.blk.toNat + 8 * j.val + n.val < s.len.toNat
      then engineByte s (128 * s.blk.toNat + 8 * j.val + n.val) else 0#8) ∧
    (s.overwritten = [] → ∀ a : Nat, engineByte s a = s.mem.read a)

/-- R64, R62: with no racing store, LOAD's result depends on no message byte outside the block or at or beyond LEN. -/
def Obligations.LoadReadsOnlyItsBlock : Prop :=
  ∀ (s t u : State) (mem : Memory), s.overwritten = [] →
    (∀ a : Nat, 128 * s.blk.toNat ≤ a → a < min (128 * s.blk.toNat + 128) s.len.toNat → mem.read a = s.mem.read a) →
    exec .load s = .next t → exec .load { s with mem := mem } = .next u → u.m = t.m

/-- R142: WORD by its three cases. -/
def Obligations.MessageWordCases : Prop :=
  ∀ (msg : Nat → Byte) (len p : Nat),
    (8 * p + 8 ≤ len → ∀ n : Fin 8, byteOf (msgWord msg len p) n.val = msg (8 * p + n.val)) ∧
    (8 * p < len → len < 8 * p + 8 → ∀ n : Fin 8, byteOf (msgWord msg len p) n.val =
      if n.val < len - 8 * p then msg (8 * p + n.val) else 0#8) ∧
    (len ≤ 8 * p → msgWord msg len p = 0#64)

/-- R191: VINIT builds all sixteen lanes and changes SEQ only besides. -/
def Obligations.VinitBuildsTheWorkingState : Prop :=
  ∀ s : State, ∃ t, exec .vinit s = .next t ∧ t = { s with v := t.v, seq := 0x280#11 } ∧
    (∀ k : Fin 8, t.v[k.val] = s.h[k]) ∧ (∀ k : Fin 4, t.v[8 + k.val] = iv[k.val]) ∧
    t.v[12] = iv[4] ^^^ s.t0 ∧ t.v[13] = iv[5] ^^^ s.t1 ∧ t.v[14] = iv[6] ^^^ s.f0 ∧ t.v[15] = iv[7] ^^^ s.f1

/-- R163: MIX applies GQ to the four lanes of QUAD[i] with M[SIGMA[r][2i]] and M[SIGMA[r][2i + 1]], leaves the other twelve
lanes and every other register, and moves to the next application, the next round or FOLD; in one round no word of M is
taken twice. A round index of 12 to 15 is never produced. -/
def Obligations.MixAppliesG : Prop :=
  (∀ (r : BitVec 4) (i : BitVec 3) (s : State) (hr : r.toNat < 12),
    ∃ t, exec (.mix r i) s = .next t ∧ t = { s with v := t.v, seq := t.seq } ∧
      (let q := quad i.toFin
       let w := gq ⟨s.v[q.a], s.v[q.b], s.v[q.c], s.v[q.d]⟩
         s.m[sigma ⟨r.toNat, hr⟩ ⟨2 * i.toNat, by omega⟩] s.m[sigma ⟨r.toNat, hr⟩ ⟨2 * i.toNat + 1, by omega⟩]
       t.v[q.a] = w.a ∧ t.v[q.b] = w.b ∧ t.v[q.c] = w.c ∧ t.v[q.d] = w.d ∧
       (∀ l : Fin 16, l ≠ q.a → l ≠ q.b → l ≠ q.c → l ≠ q.d → t.v[l] = s.v[l])) ∧
      t.seq.toNat = (if i.toNat < 7 then 0x280 + 8 * r.toNat + (i.toNat + 1)
        else if r.toNat < 11 then 0x280 + 8 * (r.toNat + 1) else 0x300)) ∧
  (∀ r : Fin 12, Function.Bijective (sigma r))

/-- R193: FOLD replaces all eight words from the old H; FINAL chooses OUT or NEXT. -/
def Obligations.FoldReplacesTheChainingValue : Prop :=
  ∀ s : State, ∃ t, exec .fold s = .next t ∧ t = { s with h := t.h, seq := t.seq } ∧
    (∀ k : Fin 8, t.h[k] = s.h[k] ^^^ s.v[k.val] ^^^ s.v[k.val + 8]) ∧
    (s.final = true → t.seq = 0x400#11) ∧ (s.final = false → t.seq = 0x380#11)

/-- R217: NEXT advances the block source and the offset, without wrap when the sums fit their registers. -/
def Obligations.NextAdvancesTheBlock : Prop :=
  ∀ s : State, ∃ t, exec .next s = .next t ∧ t = { s with blk := t.blk, offset := t.offset, seq := 0x100#11 } ∧
    (s.blk.toNat + 1 < 2 ^ 57 → t.blk.toNat = s.blk.toNat + 1) ∧
    (s.offset.toNat + 128 < 2 ^ 64 → t.offset.toNat = s.offset.toNat + 128)

/-- R218: OUT, in a call no host store raced with: the 64 bytes of H little-endian, OUT_LEN, BUSY, DONE, IDLE. -/
def Obligations.OutDeliversTheDigest : Prop :=
  ∀ s : State, s.overwritten = [] → ∃ t, exec .out s = .next t ∧
    t = { s with digest := t.digest, outLen := s.dlen, busy := false, done := true, seq := 0x000#11 } ∧
    (∀ k j : Fin 8, t.digest[8 * k.val + j.val] = byteOf s.h[k] j.val) ∧
    (∀ k : Fin 8, readRegister t (24 + k.val) = s.h[k])

/-- R332: OUT in a call a host store raced with: DIGEST is HASHF of the message with each raced byte at one of the values it
had (log entry 6); everything else as in R218. -/
def Obligations.RacedCallDeliversHashOfAMixture : Prop :=
  ∀ s : State, s.overwritten ≠ [] → ∃ t, exec .out s = .next t ∧
    t = { s with
      digest := t.digest, outLen := s.dlen, busy := false, done := true, overwritten := [], seq := 0x000#11 } ∧
    ∃ msg : Nat → Byte, (∀ a, msg a = s.mem.read a ∨ (a, msg a) ∈ s.overwritten) ∧
      t.digest = hashf s.dlen s.klen (byteOfPair s.salt0 s.salt1) (byteOfPair s.pers0 s.pers1) msg s.len.toNat

/-- R219: after OUT the reported digest has exactly OUT_LEN bytes, the first bytes of DIGEST. -/
def Obligations.ReportedDigestIsAPrefix : Prop :=
  ∀ s t : State, ConfigLegal s → s.cfg = true → exec .out s = .next t →
    (digestOf t.digest t.outLen.toNat).length = s.dlen.toNat ∧
    ∀ n : Nat, n < s.dlen.toNat → (digestOf t.digest t.outLen.toNat)[n]? = t.digest[n]?

/-! ## The functions the steps apply -/

/-- R160, R161, R162 (e): what the operators of GQ do to the bits (addition is the sum mod 2^64, rotr64 moves bit j + n mod 64
to bit j, rotr64 by 63 is a rotate left by 1), GQ's eight steps with their rotation amounts 32, 24, 16, 63, and, for fixed
x and y, GQ as a bijection on (a, b, c, d). -/
def Obligations.GqIsEightInvertibleSteps : Prop :=
  (∀ a b x : Word, (a + b + x).toNat = (a.toNat + b.toNat + x.toNat) % 2 ^ 64) ∧
  (∀ (x : Word) (n j : Nat), 0 < n → n < 64 → j < 64 → (rotr64 x n).getLsbD j = x.getLsbD ((j + n) % 64)) ∧
  (∀ (x : Word) (j : Nat), j < 64 → (rotr64 x 63).getLsbD ((j + 1) % 64) = x.getLsbD j) ∧
  (∀ a b c d x y a1 d1 c1 b1 a2 d2 c2 b2 : Word,
    a1 = a + b + x → d1 = rotr64 (d ^^^ a1) 32 → c1 = c + d1 → b1 = rotr64 (b ^^^ c1) 24 →
    a2 = a1 + b1 + y → d2 = rotr64 (d1 ^^^ a2) 16 → c2 = c1 + d2 → b2 = rotr64 (b1 ^^^ c2) 63 →
    gq ⟨a, b, c, d⟩ x y = ⟨a2, b2, c2, d2⟩) ∧
  (∀ x y : Word, Function.Bijective (fun q : Quad Word => gq q x y))

/-- R183: two column applications commute, and two diagonal applications commute. -/
def Obligations.ApplicationsOfOneGroupCommute : Prop :=
  ∀ (m v : Vector Word 16) (r : Fin 12) (i j : Fin 8), (i.val < 4 ↔ j.val < 4) →
    gStep m r i (gStep m r j v) = gStep m r j (gStep m r i v)

/-- R122: configurations that differ in digest length, key length, salt or personalization give different H0. -/
def Obligations.InitialChainingValueIsInjective : Prop :=
  ∀ s t : State, h0 (pbView s) = h0 (pbView t) →
    s.dlen = t.dlen ∧ s.klen = t.klen ∧ s.salt0 = t.salt0 ∧ s.salt1 = t.salt1 ∧ s.pers0 = t.pers0 ∧ s.pers1 = t.pers1

/-- R222: the empty message: one terminal compression over an all-zero block, reading no byte of the message. -/
def Obligations.EmptyMessageIsOneZeroBlock : Prop :=
  ∀ (d k : Byte) (salt pers msg : Nat → Byte),
    hashf d k salt pers msg 0 =
      digestBytes (compress (h0 (pblk d k salt pers)) (Vector.replicate 16 0#64) 0#64 0#64 0xFFFFFFFFFFFFFFFF#64 0#64)

/-- R210, R221: the bound on HASHF's loop cuts nothing off (log entry 14): the loop ends by its test, after N - 1 passes, and
a larger bound gives the same result. -/
def Obligations.LoopBoundSuffices : Prop :=
  ∀ (msg : Nat → Byte) (len fuel : Nat) (h : Vector Word 8), len / 128 ≤ fuel →
    hashLoop msg len fuel ⟨h, 0, 0, 0⟩ = hashLoop msg len (len / 128) ⟨h, 0, 0, 0⟩ ∧
    len ≤ (hashLoop msg len fuel ⟨h, 0, 0, 0⟩).off + 128 ∧
    (hashLoop msg len fuel ⟨h, 0, 0, 0⟩).b = compressions len - 1

/-! ## The whole machine -/

/-- R46, R47: the invariant holds right after reset (the registers R46 leaves unspecified are the model's 0, log entry 1; the
invariant names none of them while CFG = 0 and SEQ is IDLE). -/
def Obligations.ResetIsSound : Prop := Sound State.reset

/-- R47, R99: every step keeps the invariant, from every state that has it, whatever turn comes next. -/
def Obligations.StepKeepsSound : Prop :=
  ∀ s t : State, Sound s → step s = .next t → Sound t

/-- R280, R338: from a sound state no turn stops the machine, a host value too wide for its register apart. -/
def Obligations.SoundStatesNeverStop : Prop :=
  ∀ s : State, Sound s → (∀ reg v, nextTurn s = .write reg v → v.toNat < 2 ^ regWidth reg) → ∃ t, step s = .next t

/-- R226, R227: from a state in which HASH was just accepted, with the message left alone, the engine is busy for exactly
101 N + 1 steps and then rests in IDLE with DIGEST = HASHF of the configuration and the message and OUT_LEN = DLEN. -/
def Obligations.HashCallComputesHashf : Prop :=
  ∀ s : State, HashAccepted s →
    (∀ k, k < 101 * compressions s.len.toNat + 1 → ∃ u, stepN k s = .next u ∧ u.busy = true) ∧
    ∃ t, stepN (101 * compressions s.len.toNat + 1) s = .next t ∧
      t.busy = false ∧ t.done = true ∧ t.seq = seqWord .idle 0 0 ∧ t.outLen = s.dlen ∧
      t.digest =
        hashf s.dlen s.klen (byteOfPair s.salt0 s.salt1) (byteOfPair s.pers0 s.pers1) s.mem.read s.len.toNat ∧
      SameConfiguration t s ∧ t.mem = s.mem

/-- R260 (a): two hash calls with equal configuration, length and message bytes give equal DIGEST and OUT_LEN, whatever the
rest of the two states holds. -/
def Obligations.EqualCallsGiveEqualDigests : Prop :=
  ∀ s s' : State, HashAccepted s → HashAccepted s' →
    s.dlen = s'.dlen → s.klen = s'.klen → s.salt0 = s'.salt0 → s.salt1 = s'.salt1 → s.pers0 = s'.pers0 →
    s.pers1 = s'.pers1 → s.len = s'.len → (∀ a : Nat, a < s.len.toNat → s.mem.read a = s'.mem.read a) →
    ∃ t t', stepN (101 * compressions s.len.toNat + 1) s = .next t ∧
      stepN (101 * compressions s.len.toNat + 1) s' = .next t' ∧ t.digest = t'.digest ∧ t.outLen = t'.outLen

/-- R38, R47 (d): while BUSY = 1 no turn but Reset changes the configuration, the staging registers or LEN. -/
def Obligations.ConfigurationFrozenWhileBusy : Prop :=
  ∀ s t : State, s.busy = true → nextTurn s ≠ .reset → step s = .next t → SameConfiguration t s ∧ t.len = s.len

/-- R330, R332, R250: while BUSY = 1 a host turn other than Reset, a store below LEN apart, leaves every engine register but
OVR and every message byte of the call as they were. -/
def Obligations.HostTurnsDoNotDisturbTheCall : Prop :=
  ∀ s t : State, s.busy = true → Memory.wf s.mem → nextTurn s ≠ .engine → nextTurn s ≠ .reset →
    (∀ addr b, nextTurn s = .store addr b → s.len.toNat ≤ addr.toNat) → step s = .next t →
    SameEngine { t with ovr := s.ovr } s ∧ t.overwritten = s.overwritten ∧
    ∀ a : Nat, a < s.len.toNat → t.mem.read a = s.mem.read a

/-- R43: DIGEST and OUT_LEN keep their contents from one OUT to the next. -/
def Obligations.OnlyOutWritesTheResult : Prop :=
  ∀ s t : State, step s = .next t → nextTurn s ≠ .reset → ¬ (nextTurn s = .engine ∧ s.seq = seqWord .out 0 0) →
    t.digest = s.digest ∧ t.outLen = s.outLen

/-- R292, R293: the first error is kept until CLR_ERR or Reset. -/
def Obligations.FirstErrorIsKept : Prop :=
  ∀ s t : State, s.err = true → step s = .next t → nextTurn s ≠ .reset → ¬ ClearsError s →
    t.err = true ∧ t.errcode = s.errcode ∧ t.errinfo = s.errinfo

/-- R211: the transition table of SEQ, and no other transition: an engine turn follows the table; any other turn leaves SEQ
alone but an accepted HASH and Reset. -/
def Obligations.SequencerFollowsTheTable : Prop :=
  (∀ s t : State, nextTurn s = .engine → step s = .next t →
    (s.seq = 0x000#11 → t.seq = 0x000#11) ∧ (s.seq = 0x080#11 → t.seq = 0x100#11) ∧
    (s.seq = 0x100#11 → t.seq = 0x180#11) ∧ (s.seq = 0x180#11 → t.seq = 0x200#11) ∧
    (s.seq = 0x200#11 → t.seq = 0x280#11) ∧
    (∀ n : Nat, n < 95 → s.seq = BitVec.ofNat 11 (0x280 + n) → t.seq = BitVec.ofNat 11 (0x280 + n + 1)) ∧
    (s.seq = 0x2DF#11 → t.seq = 0x300#11) ∧
    (s.seq = 0x300#11 → s.final = false → t.seq = 0x380#11) ∧ (s.seq = 0x300#11 → s.final = true → t.seq = 0x400#11) ∧
    (s.seq = 0x380#11 → t.seq = 0x100#11) ∧ (s.seq = 0x400#11 → t.seq = 0x000#11)) ∧
  (∀ s t : State, nextTurn s ≠ .engine → nextTurn s ≠ .reset → step s = .next t → t.seq ≠ s.seq →
    Accepting s ∧ s.cfg = true ∧ WritesCommand s 0x00000005#32 ∧ t.seq = 0x080#11)

/-- R337: the sequence of phases depends on LEN only. Two accepted calls of equal LEN, with no host turn to come, show the
same SEQ after every number of steps, whatever else the two states hold (stale OFFSET and FINAL included). Step by step, two
states in the same place of a call step to states in the same place. -/
def Obligations.SequencingIsDataIndependent : Prop :=
  (∀ (s s' t : State) (n : Nat), HashAccepted s → HashAccepted s' → s.len = s'.len → stepN n s = .next t →
    ∃ t', stepN n s' = .next t' ∧ t.seq = t'.seq) ∧
  (∀ s s' t : State, s.agenda = [] → s'.agenda = [] → SamePlace s s' → step s = .next t →
    ∃ t', step s' = .next t' ∧ SamePlace t t')

/-- R66: no instruction writes memory. -/
def Obligations.EngineNeverWritesMemory : Prop :=
  ∀ (i : Instr) (s t : State), exec i s = .next t → ∀ a : Nat, t.mem.read a = s.mem.read a
end

