-- ==== Sys2Proof/Laws/Memory.lean ====
section
/-! SUPPORT. The message space: read after write, and every memory operation keeps the canonical form. -/

namespace Sys2Proof.Laws

open Sys2Proof.Machine

theorem memory_read_nil (a : Nat) : Memory.read [] a = unlistedByte := rfl

theorem memory_read_cons (k : Nat) (b : Byte) (rest : Memory) (a : Nat) :
    Memory.read ((k, b) :: rest) a = if a = k then b else Memory.read rest a := rfl

/-- An address that is not listed reads as an unlisted byte. -/
theorem memory_read_unlisted (mem : Memory) (a : Nat) (h : ∀ c ∈ mem, c.1 ≠ a) :
    mem.read a = unlistedByte := by
  induction mem with
  | nil => rfl
  | cons c rest ih =>
    obtain ⟨k, b⟩ := c
    have hk : a ≠ k := fun e => h (k, b) (by simp) e.symm
    rw [memory_read_cons, if_neg hk]
    exact ih fun c hc => h c (by simp [hc])

/-- A read after a write: the byte written at that address, every other address as before, in canonical memories. -/
theorem memory_read_write (mem : Memory) (a : Nat) (b : Byte) (a' : Nat) (hwf : Memory.wf mem) :
    (mem.write a b).read a' = if a' = a then b else mem.read a' := by
  induction mem with
  | nil =>
    by_cases hb : b = unlistedByte
    · simp only [Memory.write, if_pos hb]
      by_cases h : a' = a <;> simp [Memory.read, h, hb]
    · simp only [Memory.write, if_neg hb]
      rfl
  | cons c rest ih =>
    obtain ⟨k, c⟩ := c
    obtain ⟨hp, hne⟩ := hwf
    rw [List.pairwise_cons] at hp
    have hrest : Memory.wf rest := ⟨hp.2, fun c hc => hne c (by simp [hc])⟩
    have habsent : ∀ x, x ≤ k → Memory.read rest x = unlistedByte := fun x hx =>
      memory_read_unlisted rest x fun c hc => by have := hp.1 c hc; simp at this; omega
    by_cases h1 : a < k
    · by_cases hb : b = unlistedByte
      · simp only [Memory.write, if_pos h1, if_pos hb]
        by_cases h : a' = a
        · subst h
          rw [memory_read_cons, if_neg (by omega), habsent _ (by omega), if_pos rfl, hb]
        · rw [if_neg h]
      · simp only [Memory.write, if_pos h1, if_neg hb]
        rw [memory_read_cons]
    · by_cases h3 : a = k
      · by_cases hb : b = unlistedByte
        · simp only [Memory.write, if_neg h1, if_pos h3, if_pos hb]
          by_cases h : a' = a
          · subst h
            rw [habsent _ (by omega), if_pos rfl, hb]
          · rw [if_neg h, memory_read_cons, if_neg (by omega)]
        · simp only [Memory.write, if_neg h1, if_pos h3, if_neg hb]
          rw [memory_read_cons, memory_read_cons, h3]
          by_cases h : a' = k <;> simp [h]
      · simp only [Memory.write, if_neg h1, if_neg h3]
        rw [memory_read_cons, memory_read_cons, ih hrest]
        by_cases h : a' = k
        · subst h; rw [if_pos rfl, if_neg (by omega), if_pos rfl]
        · rw [if_neg h, if_neg h]

/-- Every address a write lists is the written one or was listed before. -/
theorem memory_mem_write (mem : Memory) (a : Nat) (b : Byte) :
    ∀ c ∈ mem.write a b, c = (a, b) ∨ c ∈ mem := by
  induction mem with
  | nil =>
    unfold Memory.write
    split <;> simp
  | cons c rest ih =>
    obtain ⟨k, c⟩ := c
    unfold Memory.write
    split_ifs <;> intro x hx
    · exact .inr hx
    · simpa using hx
    · simp [hx]
    · rcases List.mem_cons.mp hx with h | h
      · exact .inl h
      · exact .inr (by simp [h])
    · rcases List.mem_cons.mp hx with h | h
      · exact .inr (by simp [h])
      · rcases ih x h with h | h
        · exact .inl h
        · exact .inr (by simp [h])

/-- A write keeps the canonical form. -/
theorem memory_write_wf (mem : Memory) (a : Nat) (b : Byte) (hwf : Memory.wf mem) :
    Memory.wf (mem.write a b) := by
  induction mem with
  | nil =>
    unfold Memory.write
    split_ifs with h
    · exact hwf
    · exact ⟨by simp, by simpa using h⟩
  | cons c rest ih =>
    obtain ⟨k, c⟩ := c
    obtain ⟨hp, hne⟩ := hwf
    rw [List.pairwise_cons] at hp
    have hrest : Memory.wf rest := ⟨hp.2, fun c hc => hne c (by simp [hc])⟩
    have hc : c ≠ unlistedByte := hne (k, c) (by simp)
    unfold Memory.write
    split_ifs with h1 h2 h3 h4
    · exact ⟨List.pairwise_cons.mpr hp, hne⟩
    · refine ⟨List.pairwise_cons.mpr ⟨?_, List.pairwise_cons.mpr hp⟩, ?_⟩
      · intro x hx
        rcases List.mem_cons.mp hx with h | h
        · simpa [h] using h1
        · have := hp.1 x h; simp at this ⊢; omega
      · intro x hx
        rcases List.mem_cons.mp hx with h | h
        · simpa [h] using h2
        · exact hne x h
    · exact hrest
    · subst h3
      refine ⟨List.pairwise_cons.mpr ⟨fun x hx => hp.1 x hx, hp.2⟩, ?_⟩
      intro x hx
      rcases List.mem_cons.mp hx with h | h
      · simpa [h] using h4
      · exact hrest.2 x h
    · obtain ⟨hp', hne'⟩ := ih hrest
      refine ⟨List.pairwise_cons.mpr ⟨?_, hp'⟩, ?_⟩
      · intro x hx
        rcases memory_mem_write rest a b x hx with h | h
        · simp [h]; omega
        · exact hp.1 x h
      · intro x hx
        rcases List.mem_cons.mp hx with h | h
        · simpa [h] using hc
        · exact hne' x h

theorem memory_nil_wf : Memory.wf [] := by decide

/-- The host's store keeps the message space canonical. -/
theorem hostStore_keeps_wf (addr : Nat) (b : Byte) (s : State) (h : Memory.wf s.mem) :
    Memory.wf (hostStore addr b s).mem :=
  memory_write_wf s.mem addr b h

/-- The Reset action keeps the message space. -/
theorem resetAction_keeps_wf (s : State) (h : Memory.wf s.mem) : Memory.wf (resetAction s).mem := h

/-- With no racing store in the call, the engine uses the stored byte. -/
theorem engineByte_quiet (s : State) (a : Nat) (h : s.overwritten = []) :
    engineByte s a = s.mem.read a := by
  simp [engineByte, olderBytes, h]

end Sys2Proof.Laws
end

