-- ==== Sys2Proof/Laws/State.lean ====
section
/-! SUPPORT. One lemma per field for each named operation on the state, true by rfl, so that no proof unfolds a record
update. -/

namespace Sys2Proof.Laws

open Sys2Proof.Machine

/-! ## the error entry (R290) -/

@[simp] theorem raise_h (e : CommandError) (w : BitVec 32) (s : State) : (raise e w s).h = s.h := rfl
@[simp] theorem raise_v (e : CommandError) (w : BitVec 32) (s : State) : (raise e w s).v = s.v := rfl
@[simp] theorem raise_m (e : CommandError) (w : BitVec 32) (s : State) : (raise e w s).m = s.m := rfl
@[simp] theorem raise_t0 (e : CommandError) (w : BitVec 32) (s : State) : (raise e w s).t0 = s.t0 := rfl
@[simp] theorem raise_t1 (e : CommandError) (w : BitVec 32) (s : State) : (raise e w s).t1 = s.t1 := rfl
@[simp] theorem raise_f0 (e : CommandError) (w : BitVec 32) (s : State) : (raise e w s).f0 = s.f0 := rfl
@[simp] theorem raise_f1 (e : CommandError) (w : BitVec 32) (s : State) : (raise e w s).f1 = s.f1 := rfl
@[simp] theorem raise_final (e : CommandError) (w : BitVec 32) (s : State) : (raise e w s).final = s.final := rfl
@[simp] theorem raise_seq (e : CommandError) (w : BitVec 32) (s : State) : (raise e w s).seq = s.seq := rfl
@[simp] theorem raise_len (e : CommandError) (w : BitVec 32) (s : State) : (raise e w s).len = s.len := rfl
@[simp] theorem raise_offset (e : CommandError) (w : BitVec 32) (s : State) : (raise e w s).offset = s.offset := rfl
@[simp] theorem raise_blk (e : CommandError) (w : BitVec 32) (s : State) : (raise e w s).blk = s.blk := rfl
@[simp] theorem raise_dlen (e : CommandError) (w : BitVec 32) (s : State) : (raise e w s).dlen = s.dlen := rfl
@[simp] theorem raise_klen (e : CommandError) (w : BitVec 32) (s : State) : (raise e w s).klen = s.klen := rfl
@[simp] theorem raise_salt0 (e : CommandError) (w : BitVec 32) (s : State) : (raise e w s).salt0 = s.salt0 := rfl
@[simp] theorem raise_salt1 (e : CommandError) (w : BitVec 32) (s : State) : (raise e w s).salt1 = s.salt1 := rfl
@[simp] theorem raise_pers0 (e : CommandError) (w : BitVec 32) (s : State) : (raise e w s).pers0 = s.pers0 := rfl
@[simp] theorem raise_pers1 (e : CommandError) (w : BitVec 32) (s : State) : (raise e w s).pers1 = s.pers1 := rfl
@[simp] theorem raise_saltIn0 (e : CommandError) (w : BitVec 32) (s : State) : (raise e w s).saltIn0 = s.saltIn0 := rfl
@[simp] theorem raise_saltIn1 (e : CommandError) (w : BitVec 32) (s : State) : (raise e w s).saltIn1 = s.saltIn1 := rfl
@[simp] theorem raise_persIn0 (e : CommandError) (w : BitVec 32) (s : State) : (raise e w s).persIn0 = s.persIn0 := rfl
@[simp] theorem raise_persIn1 (e : CommandError) (w : BitVec 32) (s : State) : (raise e w s).persIn1 = s.persIn1 := rfl
@[simp] theorem raise_msgLen (e : CommandError) (w : BitVec 32) (s : State) : (raise e w s).msgLen = s.msgLen := rfl
@[simp] theorem raise_busy (e : CommandError) (w : BitVec 32) (s : State) : (raise e w s).busy = s.busy := rfl
@[simp] theorem raise_done (e : CommandError) (w : BitVec 32) (s : State) : (raise e w s).done = s.done := rfl
@[simp] theorem raise_cfg (e : CommandError) (w : BitVec 32) (s : State) : (raise e w s).cfg = s.cfg := rfl
@[simp] theorem raise_err (e : CommandError) (w : BitVec 32) (s : State) : (raise e w s).err = true := rfl
@[simp] theorem raise_ovr (e : CommandError) (w : BitVec 32) (s : State) : (raise e w s).ovr = s.ovr := rfl
@[simp] theorem raise_errcode (e : CommandError) (w : BitVec 32) (s : State) :
    (raise e w s).errcode = errorCode e := rfl
@[simp] theorem raise_errinfo (e : CommandError) (w : BitVec 32) (s : State) : (raise e w s).errinfo = w := rfl
@[simp] theorem raise_digest (e : CommandError) (w : BitVec 32) (s : State) : (raise e w s).digest = s.digest := rfl
@[simp] theorem raise_outLen (e : CommandError) (w : BitVec 32) (s : State) : (raise e w s).outLen = s.outLen := rfl
@[simp] theorem raise_mem (e : CommandError) (w : BitVec 32) (s : State) : (raise e w s).mem = s.mem := rfl
@[simp] theorem raise_keyPolicy (e : CommandError) (w : BitVec 32) (s : State) :
    (raise e w s).keyPolicy = s.keyPolicy := rfl
@[simp] theorem raise_agenda (e : CommandError) (w : BitVec 32) (s : State) : (raise e w s).agenda = s.agenda := rfl
@[simp] theorem raise_hostReads (e : CommandError) (w : BitVec 32) (s : State) :
    (raise e w s).hostReads = s.hostReads := rfl
@[simp] theorem raise_overwritten (e : CommandError) (w : BitVec 32) (s : State) :
    (raise e w s).overwritten = s.overwritten := rfl
@[simp] theorem raise_calls (e : CommandError) (w : BitVec 32) (s : State) : (raise e w s).calls = s.calls := rfl

/-! ## the return from the error state (R257) -/

@[simp] theorem clearError_h (s : State) : (clearError s).h = s.h := rfl
@[simp] theorem clearError_v (s : State) : (clearError s).v = s.v := rfl
@[simp] theorem clearError_m (s : State) : (clearError s).m = s.m := rfl
@[simp] theorem clearError_t0 (s : State) : (clearError s).t0 = s.t0 := rfl
@[simp] theorem clearError_t1 (s : State) : (clearError s).t1 = s.t1 := rfl
@[simp] theorem clearError_f0 (s : State) : (clearError s).f0 = s.f0 := rfl
@[simp] theorem clearError_f1 (s : State) : (clearError s).f1 = s.f1 := rfl
@[simp] theorem clearError_final (s : State) : (clearError s).final = s.final := rfl
@[simp] theorem clearError_seq (s : State) : (clearError s).seq = s.seq := rfl
@[simp] theorem clearError_len (s : State) : (clearError s).len = s.len := rfl
@[simp] theorem clearError_offset (s : State) : (clearError s).offset = s.offset := rfl
@[simp] theorem clearError_blk (s : State) : (clearError s).blk = s.blk := rfl
@[simp] theorem clearError_dlen (s : State) : (clearError s).dlen = s.dlen := rfl
@[simp] theorem clearError_klen (s : State) : (clearError s).klen = s.klen := rfl
@[simp] theorem clearError_salt0 (s : State) : (clearError s).salt0 = s.salt0 := rfl
@[simp] theorem clearError_salt1 (s : State) : (clearError s).salt1 = s.salt1 := rfl
@[simp] theorem clearError_pers0 (s : State) : (clearError s).pers0 = s.pers0 := rfl
@[simp] theorem clearError_pers1 (s : State) : (clearError s).pers1 = s.pers1 := rfl
@[simp] theorem clearError_saltIn0 (s : State) : (clearError s).saltIn0 = s.saltIn0 := rfl
@[simp] theorem clearError_saltIn1 (s : State) : (clearError s).saltIn1 = s.saltIn1 := rfl
@[simp] theorem clearError_persIn0 (s : State) : (clearError s).persIn0 = s.persIn0 := rfl
@[simp] theorem clearError_persIn1 (s : State) : (clearError s).persIn1 = s.persIn1 := rfl
@[simp] theorem clearError_msgLen (s : State) : (clearError s).msgLen = s.msgLen := rfl
@[simp] theorem clearError_busy (s : State) : (clearError s).busy = s.busy := rfl
@[simp] theorem clearError_done (s : State) : (clearError s).done = s.done := rfl
@[simp] theorem clearError_cfg (s : State) : (clearError s).cfg = s.cfg := rfl
@[simp] theorem clearError_err (s : State) : (clearError s).err = false := rfl
@[simp] theorem clearError_ovr (s : State) : (clearError s).ovr = false := rfl
@[simp] theorem clearError_errcode (s : State) : (clearError s).errcode = 0#8 := rfl
@[simp] theorem clearError_errinfo (s : State) : (clearError s).errinfo = 0#32 := rfl
@[simp] theorem clearError_digest (s : State) : (clearError s).digest = s.digest := rfl
@[simp] theorem clearError_outLen (s : State) : (clearError s).outLen = s.outLen := rfl
@[simp] theorem clearError_mem (s : State) : (clearError s).mem = s.mem := rfl
@[simp] theorem clearError_keyPolicy (s : State) : (clearError s).keyPolicy = s.keyPolicy := rfl
@[simp] theorem clearError_agenda (s : State) : (clearError s).agenda = s.agenda := rfl
@[simp] theorem clearError_hostReads (s : State) : (clearError s).hostReads = s.hostReads := rfl
@[simp] theorem clearError_overwritten (s : State) : (clearError s).overwritten = s.overwritten := rfl
@[simp] theorem clearError_calls (s : State) : (clearError s).calls = s.calls := rfl

/-! ## a host write discarded while busy (R250) -/

@[simp] theorem discardBusy_h (s : State) : (discardBusy s).h = s.h := rfl
@[simp] theorem discardBusy_v (s : State) : (discardBusy s).v = s.v := rfl
@[simp] theorem discardBusy_m (s : State) : (discardBusy s).m = s.m := rfl
@[simp] theorem discardBusy_t0 (s : State) : (discardBusy s).t0 = s.t0 := rfl
@[simp] theorem discardBusy_t1 (s : State) : (discardBusy s).t1 = s.t1 := rfl
@[simp] theorem discardBusy_f0 (s : State) : (discardBusy s).f0 = s.f0 := rfl
@[simp] theorem discardBusy_f1 (s : State) : (discardBusy s).f1 = s.f1 := rfl
@[simp] theorem discardBusy_final (s : State) : (discardBusy s).final = s.final := rfl
@[simp] theorem discardBusy_seq (s : State) : (discardBusy s).seq = s.seq := rfl
@[simp] theorem discardBusy_len (s : State) : (discardBusy s).len = s.len := rfl
@[simp] theorem discardBusy_offset (s : State) : (discardBusy s).offset = s.offset := rfl
@[simp] theorem discardBusy_blk (s : State) : (discardBusy s).blk = s.blk := rfl
@[simp] theorem discardBusy_dlen (s : State) : (discardBusy s).dlen = s.dlen := rfl
@[simp] theorem discardBusy_klen (s : State) : (discardBusy s).klen = s.klen := rfl
@[simp] theorem discardBusy_salt0 (s : State) : (discardBusy s).salt0 = s.salt0 := rfl
@[simp] theorem discardBusy_salt1 (s : State) : (discardBusy s).salt1 = s.salt1 := rfl
@[simp] theorem discardBusy_pers0 (s : State) : (discardBusy s).pers0 = s.pers0 := rfl
@[simp] theorem discardBusy_pers1 (s : State) : (discardBusy s).pers1 = s.pers1 := rfl
@[simp] theorem discardBusy_saltIn0 (s : State) : (discardBusy s).saltIn0 = s.saltIn0 := rfl
@[simp] theorem discardBusy_saltIn1 (s : State) : (discardBusy s).saltIn1 = s.saltIn1 := rfl
@[simp] theorem discardBusy_persIn0 (s : State) : (discardBusy s).persIn0 = s.persIn0 := rfl
@[simp] theorem discardBusy_persIn1 (s : State) : (discardBusy s).persIn1 = s.persIn1 := rfl
@[simp] theorem discardBusy_msgLen (s : State) : (discardBusy s).msgLen = s.msgLen := rfl
@[simp] theorem discardBusy_busy (s : State) : (discardBusy s).busy = s.busy := rfl
@[simp] theorem discardBusy_done (s : State) : (discardBusy s).done = s.done := rfl
@[simp] theorem discardBusy_cfg (s : State) : (discardBusy s).cfg = s.cfg := rfl
@[simp] theorem discardBusy_err (s : State) : (discardBusy s).err = s.err := rfl
@[simp] theorem discardBusy_ovr (s : State) : (discardBusy s).ovr = true := rfl
@[simp] theorem discardBusy_errcode (s : State) : (discardBusy s).errcode = s.errcode := rfl
@[simp] theorem discardBusy_errinfo (s : State) : (discardBusy s).errinfo = s.errinfo := rfl
@[simp] theorem discardBusy_digest (s : State) : (discardBusy s).digest = s.digest := rfl
@[simp] theorem discardBusy_outLen (s : State) : (discardBusy s).outLen = s.outLen := rfl
@[simp] theorem discardBusy_mem (s : State) : (discardBusy s).mem = s.mem := rfl
@[simp] theorem discardBusy_keyPolicy (s : State) : (discardBusy s).keyPolicy = s.keyPolicy := rfl
@[simp] theorem discardBusy_agenda (s : State) : (discardBusy s).agenda = s.agenda := rfl
@[simp] theorem discardBusy_hostReads (s : State) : (discardBusy s).hostReads = s.hostReads := rfl
@[simp] theorem discardBusy_overwritten (s : State) : (discardBusy s).overwritten = s.overwritten := rfl
@[simp] theorem discardBusy_calls (s : State) : (discardBusy s).calls = s.calls := rfl

/-! ## HostRead (R92) -/

@[simp] theorem hostRead_h (reg : Nat) (s : State) : (hostRead reg s).h = s.h := rfl
@[simp] theorem hostRead_v (reg : Nat) (s : State) : (hostRead reg s).v = s.v := rfl
@[simp] theorem hostRead_m (reg : Nat) (s : State) : (hostRead reg s).m = s.m := rfl
@[simp] theorem hostRead_t0 (reg : Nat) (s : State) : (hostRead reg s).t0 = s.t0 := rfl
@[simp] theorem hostRead_t1 (reg : Nat) (s : State) : (hostRead reg s).t1 = s.t1 := rfl
@[simp] theorem hostRead_f0 (reg : Nat) (s : State) : (hostRead reg s).f0 = s.f0 := rfl
@[simp] theorem hostRead_f1 (reg : Nat) (s : State) : (hostRead reg s).f1 = s.f1 := rfl
@[simp] theorem hostRead_final (reg : Nat) (s : State) : (hostRead reg s).final = s.final := rfl
@[simp] theorem hostRead_seq (reg : Nat) (s : State) : (hostRead reg s).seq = s.seq := rfl
@[simp] theorem hostRead_len (reg : Nat) (s : State) : (hostRead reg s).len = s.len := rfl
@[simp] theorem hostRead_offset (reg : Nat) (s : State) : (hostRead reg s).offset = s.offset := rfl
@[simp] theorem hostRead_blk (reg : Nat) (s : State) : (hostRead reg s).blk = s.blk := rfl
@[simp] theorem hostRead_dlen (reg : Nat) (s : State) : (hostRead reg s).dlen = s.dlen := rfl
@[simp] theorem hostRead_klen (reg : Nat) (s : State) : (hostRead reg s).klen = s.klen := rfl
@[simp] theorem hostRead_salt0 (reg : Nat) (s : State) : (hostRead reg s).salt0 = s.salt0 := rfl
@[simp] theorem hostRead_salt1 (reg : Nat) (s : State) : (hostRead reg s).salt1 = s.salt1 := rfl
@[simp] theorem hostRead_pers0 (reg : Nat) (s : State) : (hostRead reg s).pers0 = s.pers0 := rfl
@[simp] theorem hostRead_pers1 (reg : Nat) (s : State) : (hostRead reg s).pers1 = s.pers1 := rfl
@[simp] theorem hostRead_saltIn0 (reg : Nat) (s : State) : (hostRead reg s).saltIn0 = s.saltIn0 := rfl
@[simp] theorem hostRead_saltIn1 (reg : Nat) (s : State) : (hostRead reg s).saltIn1 = s.saltIn1 := rfl
@[simp] theorem hostRead_persIn0 (reg : Nat) (s : State) : (hostRead reg s).persIn0 = s.persIn0 := rfl
@[simp] theorem hostRead_persIn1 (reg : Nat) (s : State) : (hostRead reg s).persIn1 = s.persIn1 := rfl
@[simp] theorem hostRead_msgLen (reg : Nat) (s : State) : (hostRead reg s).msgLen = s.msgLen := rfl
@[simp] theorem hostRead_busy (reg : Nat) (s : State) : (hostRead reg s).busy = s.busy := rfl
@[simp] theorem hostRead_done (reg : Nat) (s : State) : (hostRead reg s).done = s.done := rfl
@[simp] theorem hostRead_cfg (reg : Nat) (s : State) : (hostRead reg s).cfg = s.cfg := rfl
@[simp] theorem hostRead_err (reg : Nat) (s : State) : (hostRead reg s).err = s.err := rfl
@[simp] theorem hostRead_ovr (reg : Nat) (s : State) : (hostRead reg s).ovr = s.ovr := rfl
@[simp] theorem hostRead_errcode (reg : Nat) (s : State) : (hostRead reg s).errcode = s.errcode := rfl
@[simp] theorem hostRead_errinfo (reg : Nat) (s : State) : (hostRead reg s).errinfo = s.errinfo := rfl
@[simp] theorem hostRead_digest (reg : Nat) (s : State) : (hostRead reg s).digest = s.digest := rfl
@[simp] theorem hostRead_outLen (reg : Nat) (s : State) : (hostRead reg s).outLen = s.outLen := rfl
@[simp] theorem hostRead_mem (reg : Nat) (s : State) : (hostRead reg s).mem = s.mem := rfl
@[simp] theorem hostRead_keyPolicy (reg : Nat) (s : State) : (hostRead reg s).keyPolicy = s.keyPolicy := rfl
@[simp] theorem hostRead_agenda (reg : Nat) (s : State) : (hostRead reg s).agenda = s.agenda := rfl
@[simp] theorem hostRead_hostReads (reg : Nat) (s : State) :
    (hostRead reg s).hostReads = (reg, readRegister s reg) :: s.hostReads := rfl
@[simp] theorem hostRead_overwritten (reg : Nat) (s : State) : (hostRead reg s).overwritten = s.overwritten := rfl
@[simp] theorem hostRead_calls (reg : Nat) (s : State) : (hostRead reg s).calls = s.calls := rfl

/-! ## taking a turn off the agenda -/

@[simp] theorem afterTurn_h (s : State) : (afterTurn s).h = s.h := rfl
@[simp] theorem afterTurn_v (s : State) : (afterTurn s).v = s.v := rfl
@[simp] theorem afterTurn_m (s : State) : (afterTurn s).m = s.m := rfl
@[simp] theorem afterTurn_t0 (s : State) : (afterTurn s).t0 = s.t0 := rfl
@[simp] theorem afterTurn_t1 (s : State) : (afterTurn s).t1 = s.t1 := rfl
@[simp] theorem afterTurn_f0 (s : State) : (afterTurn s).f0 = s.f0 := rfl
@[simp] theorem afterTurn_f1 (s : State) : (afterTurn s).f1 = s.f1 := rfl
@[simp] theorem afterTurn_final (s : State) : (afterTurn s).final = s.final := rfl
@[simp] theorem afterTurn_seq (s : State) : (afterTurn s).seq = s.seq := rfl
@[simp] theorem afterTurn_len (s : State) : (afterTurn s).len = s.len := rfl
@[simp] theorem afterTurn_offset (s : State) : (afterTurn s).offset = s.offset := rfl
@[simp] theorem afterTurn_blk (s : State) : (afterTurn s).blk = s.blk := rfl
@[simp] theorem afterTurn_dlen (s : State) : (afterTurn s).dlen = s.dlen := rfl
@[simp] theorem afterTurn_klen (s : State) : (afterTurn s).klen = s.klen := rfl
@[simp] theorem afterTurn_salt0 (s : State) : (afterTurn s).salt0 = s.salt0 := rfl
@[simp] theorem afterTurn_salt1 (s : State) : (afterTurn s).salt1 = s.salt1 := rfl
@[simp] theorem afterTurn_pers0 (s : State) : (afterTurn s).pers0 = s.pers0 := rfl
@[simp] theorem afterTurn_pers1 (s : State) : (afterTurn s).pers1 = s.pers1 := rfl
@[simp] theorem afterTurn_saltIn0 (s : State) : (afterTurn s).saltIn0 = s.saltIn0 := rfl
@[simp] theorem afterTurn_saltIn1 (s : State) : (afterTurn s).saltIn1 = s.saltIn1 := rfl
@[simp] theorem afterTurn_persIn0 (s : State) : (afterTurn s).persIn0 = s.persIn0 := rfl
@[simp] theorem afterTurn_persIn1 (s : State) : (afterTurn s).persIn1 = s.persIn1 := rfl
@[simp] theorem afterTurn_msgLen (s : State) : (afterTurn s).msgLen = s.msgLen := rfl
@[simp] theorem afterTurn_busy (s : State) : (afterTurn s).busy = s.busy := rfl
@[simp] theorem afterTurn_done (s : State) : (afterTurn s).done = s.done := rfl
@[simp] theorem afterTurn_cfg (s : State) : (afterTurn s).cfg = s.cfg := rfl
@[simp] theorem afterTurn_err (s : State) : (afterTurn s).err = s.err := rfl
@[simp] theorem afterTurn_ovr (s : State) : (afterTurn s).ovr = s.ovr := rfl
@[simp] theorem afterTurn_errcode (s : State) : (afterTurn s).errcode = s.errcode := rfl
@[simp] theorem afterTurn_errinfo (s : State) : (afterTurn s).errinfo = s.errinfo := rfl
@[simp] theorem afterTurn_digest (s : State) : (afterTurn s).digest = s.digest := rfl
@[simp] theorem afterTurn_outLen (s : State) : (afterTurn s).outLen = s.outLen := rfl
@[simp] theorem afterTurn_mem (s : State) : (afterTurn s).mem = s.mem := rfl
@[simp] theorem afterTurn_keyPolicy (s : State) : (afterTurn s).keyPolicy = s.keyPolicy := rfl
@[simp] theorem afterTurn_agenda (s : State) : (afterTurn s).agenda = s.agenda.tail := rfl
@[simp] theorem afterTurn_hostReads (s : State) : (afterTurn s).hostReads = s.hostReads := rfl
@[simp] theorem afterTurn_overwritten (s : State) : (afterTurn s).overwritten = s.overwritten := rfl
@[simp] theorem afterTurn_calls (s : State) : (afterTurn s).calls = s.calls := rfl

/-! ## a host store (R60, R70) -/

@[simp] theorem hostStore_h (a : Nat) (b : Byte) (s : State) : (hostStore a b s).h = s.h := rfl
@[simp] theorem hostStore_v (a : Nat) (b : Byte) (s : State) : (hostStore a b s).v = s.v := rfl
@[simp] theorem hostStore_m (a : Nat) (b : Byte) (s : State) : (hostStore a b s).m = s.m := rfl
@[simp] theorem hostStore_t0 (a : Nat) (b : Byte) (s : State) : (hostStore a b s).t0 = s.t0 := rfl
@[simp] theorem hostStore_t1 (a : Nat) (b : Byte) (s : State) : (hostStore a b s).t1 = s.t1 := rfl
@[simp] theorem hostStore_f0 (a : Nat) (b : Byte) (s : State) : (hostStore a b s).f0 = s.f0 := rfl
@[simp] theorem hostStore_f1 (a : Nat) (b : Byte) (s : State) : (hostStore a b s).f1 = s.f1 := rfl
@[simp] theorem hostStore_final (a : Nat) (b : Byte) (s : State) : (hostStore a b s).final = s.final := rfl
@[simp] theorem hostStore_seq (a : Nat) (b : Byte) (s : State) : (hostStore a b s).seq = s.seq := rfl
@[simp] theorem hostStore_len (a : Nat) (b : Byte) (s : State) : (hostStore a b s).len = s.len := rfl
@[simp] theorem hostStore_offset (a : Nat) (b : Byte) (s : State) : (hostStore a b s).offset = s.offset := rfl
@[simp] theorem hostStore_blk (a : Nat) (b : Byte) (s : State) : (hostStore a b s).blk = s.blk := rfl
@[simp] theorem hostStore_dlen (a : Nat) (b : Byte) (s : State) : (hostStore a b s).dlen = s.dlen := rfl
@[simp] theorem hostStore_klen (a : Nat) (b : Byte) (s : State) : (hostStore a b s).klen = s.klen := rfl
@[simp] theorem hostStore_salt0 (a : Nat) (b : Byte) (s : State) : (hostStore a b s).salt0 = s.salt0 := rfl
@[simp] theorem hostStore_salt1 (a : Nat) (b : Byte) (s : State) : (hostStore a b s).salt1 = s.salt1 := rfl
@[simp] theorem hostStore_pers0 (a : Nat) (b : Byte) (s : State) : (hostStore a b s).pers0 = s.pers0 := rfl
@[simp] theorem hostStore_pers1 (a : Nat) (b : Byte) (s : State) : (hostStore a b s).pers1 = s.pers1 := rfl
@[simp] theorem hostStore_saltIn0 (a : Nat) (b : Byte) (s : State) : (hostStore a b s).saltIn0 = s.saltIn0 := rfl
@[simp] theorem hostStore_saltIn1 (a : Nat) (b : Byte) (s : State) : (hostStore a b s).saltIn1 = s.saltIn1 := rfl
@[simp] theorem hostStore_persIn0 (a : Nat) (b : Byte) (s : State) : (hostStore a b s).persIn0 = s.persIn0 := rfl
@[simp] theorem hostStore_persIn1 (a : Nat) (b : Byte) (s : State) : (hostStore a b s).persIn1 = s.persIn1 := rfl
@[simp] theorem hostStore_msgLen (a : Nat) (b : Byte) (s : State) : (hostStore a b s).msgLen = s.msgLen := rfl
@[simp] theorem hostStore_busy (a : Nat) (b : Byte) (s : State) : (hostStore a b s).busy = s.busy := rfl
@[simp] theorem hostStore_done (a : Nat) (b : Byte) (s : State) : (hostStore a b s).done = s.done := rfl
@[simp] theorem hostStore_cfg (a : Nat) (b : Byte) (s : State) : (hostStore a b s).cfg = s.cfg := rfl
@[simp] theorem hostStore_err (a : Nat) (b : Byte) (s : State) : (hostStore a b s).err = s.err := rfl
@[simp] theorem hostStore_ovr (a : Nat) (b : Byte) (s : State) : (hostStore a b s).ovr = s.ovr := rfl
@[simp] theorem hostStore_errcode (a : Nat) (b : Byte) (s : State) : (hostStore a b s).errcode = s.errcode := rfl
@[simp] theorem hostStore_errinfo (a : Nat) (b : Byte) (s : State) : (hostStore a b s).errinfo = s.errinfo := rfl
@[simp] theorem hostStore_digest (a : Nat) (b : Byte) (s : State) : (hostStore a b s).digest = s.digest := rfl
@[simp] theorem hostStore_outLen (a : Nat) (b : Byte) (s : State) : (hostStore a b s).outLen = s.outLen := rfl
@[simp] theorem hostStore_mem (a : Nat) (b : Byte) (s : State) : (hostStore a b s).mem = s.mem.write a b := rfl
@[simp] theorem hostStore_keyPolicy (a : Nat) (b : Byte) (s : State) : (hostStore a b s).keyPolicy = s.keyPolicy := rfl
@[simp] theorem hostStore_agenda (a : Nat) (b : Byte) (s : State) : (hostStore a b s).agenda = s.agenda := rfl
@[simp] theorem hostStore_hostReads (a : Nat) (b : Byte) (s : State) : (hostStore a b s).hostReads = s.hostReads := rfl
@[simp] theorem hostStore_overwritten (a : Nat) (b : Byte) (s : State) :
    (hostStore a b s).overwritten = if s.busy && decide (a < s.len.toNat) then (a, s.mem.read a) :: s.overwritten else s.overwritten := rfl
@[simp] theorem hostStore_calls (a : Nat) (b : Byte) (s : State) : (hostStore a b s).calls = s.calls := rfl

/-! ## the Reset action (R320) -/

@[simp] theorem resetAction_h (s : State) : (resetAction s).h = State.reset.h := rfl
@[simp] theorem resetAction_v (s : State) : (resetAction s).v = State.reset.v := rfl
@[simp] theorem resetAction_m (s : State) : (resetAction s).m = State.reset.m := rfl
@[simp] theorem resetAction_t0 (s : State) : (resetAction s).t0 = State.reset.t0 := rfl
@[simp] theorem resetAction_t1 (s : State) : (resetAction s).t1 = State.reset.t1 := rfl
@[simp] theorem resetAction_f0 (s : State) : (resetAction s).f0 = State.reset.f0 := rfl
@[simp] theorem resetAction_f1 (s : State) : (resetAction s).f1 = State.reset.f1 := rfl
@[simp] theorem resetAction_final (s : State) : (resetAction s).final = State.reset.final := rfl
@[simp] theorem resetAction_seq (s : State) : (resetAction s).seq = State.reset.seq := rfl
@[simp] theorem resetAction_len (s : State) : (resetAction s).len = State.reset.len := rfl
@[simp] theorem resetAction_offset (s : State) : (resetAction s).offset = State.reset.offset := rfl
@[simp] theorem resetAction_blk (s : State) : (resetAction s).blk = State.reset.blk := rfl
@[simp] theorem resetAction_dlen (s : State) : (resetAction s).dlen = State.reset.dlen := rfl
@[simp] theorem resetAction_klen (s : State) : (resetAction s).klen = State.reset.klen := rfl
@[simp] theorem resetAction_salt0 (s : State) : (resetAction s).salt0 = State.reset.salt0 := rfl
@[simp] theorem resetAction_salt1 (s : State) : (resetAction s).salt1 = State.reset.salt1 := rfl
@[simp] theorem resetAction_pers0 (s : State) : (resetAction s).pers0 = State.reset.pers0 := rfl
@[simp] theorem resetAction_pers1 (s : State) : (resetAction s).pers1 = State.reset.pers1 := rfl
@[simp] theorem resetAction_saltIn0 (s : State) : (resetAction s).saltIn0 = State.reset.saltIn0 := rfl
@[simp] theorem resetAction_saltIn1 (s : State) : (resetAction s).saltIn1 = State.reset.saltIn1 := rfl
@[simp] theorem resetAction_persIn0 (s : State) : (resetAction s).persIn0 = State.reset.persIn0 := rfl
@[simp] theorem resetAction_persIn1 (s : State) : (resetAction s).persIn1 = State.reset.persIn1 := rfl
@[simp] theorem resetAction_msgLen (s : State) : (resetAction s).msgLen = State.reset.msgLen := rfl
@[simp] theorem resetAction_busy (s : State) : (resetAction s).busy = State.reset.busy := rfl
@[simp] theorem resetAction_done (s : State) : (resetAction s).done = State.reset.done := rfl
@[simp] theorem resetAction_cfg (s : State) : (resetAction s).cfg = State.reset.cfg := rfl
@[simp] theorem resetAction_err (s : State) : (resetAction s).err = State.reset.err := rfl
@[simp] theorem resetAction_ovr (s : State) : (resetAction s).ovr = State.reset.ovr := rfl
@[simp] theorem resetAction_errcode (s : State) : (resetAction s).errcode = State.reset.errcode := rfl
@[simp] theorem resetAction_errinfo (s : State) : (resetAction s).errinfo = State.reset.errinfo := rfl
@[simp] theorem resetAction_digest (s : State) : (resetAction s).digest = State.reset.digest := rfl
@[simp] theorem resetAction_outLen (s : State) : (resetAction s).outLen = State.reset.outLen := rfl
@[simp] theorem resetAction_mem (s : State) : (resetAction s).mem = s.mem := rfl
@[simp] theorem resetAction_keyPolicy (s : State) : (resetAction s).keyPolicy = s.keyPolicy := rfl
@[simp] theorem resetAction_agenda (s : State) : (resetAction s).agenda = s.agenda := rfl
@[simp] theorem resetAction_hostReads (s : State) : (resetAction s).hostReads = s.hostReads := rfl
@[simp] theorem resetAction_overwritten (s : State) : (resetAction s).overwritten = State.reset.overwritten := rfl
@[simp] theorem resetAction_calls (s : State) : (resetAction s).calls = s.calls := rfl

/-! ## HASH performed (R256) -/

@[simp] theorem performHash_h (s : State) : (performHash s).h = s.h := rfl
@[simp] theorem performHash_v (s : State) : (performHash s).v = s.v := rfl
@[simp] theorem performHash_m (s : State) : (performHash s).m = s.m := rfl
@[simp] theorem performHash_t0 (s : State) : (performHash s).t0 = s.t0 := rfl
@[simp] theorem performHash_t1 (s : State) : (performHash s).t1 = s.t1 := rfl
@[simp] theorem performHash_f0 (s : State) : (performHash s).f0 = s.f0 := rfl
@[simp] theorem performHash_f1 (s : State) : (performHash s).f1 = s.f1 := rfl
@[simp] theorem performHash_final (s : State) : (performHash s).final = s.final := rfl
@[simp] theorem performHash_seq (s : State) : (performHash s).seq = seqWord .start 0 0 := rfl
@[simp] theorem performHash_len (s : State) : (performHash s).len = s.msgLen := rfl
@[simp] theorem performHash_offset (s : State) : (performHash s).offset = s.offset := rfl
@[simp] theorem performHash_blk (s : State) : (performHash s).blk = s.blk := rfl
@[simp] theorem performHash_dlen (s : State) : (performHash s).dlen = s.dlen := rfl
@[simp] theorem performHash_klen (s : State) : (performHash s).klen = s.klen := rfl
@[simp] theorem performHash_salt0 (s : State) : (performHash s).salt0 = s.salt0 := rfl
@[simp] theorem performHash_salt1 (s : State) : (performHash s).salt1 = s.salt1 := rfl
@[simp] theorem performHash_pers0 (s : State) : (performHash s).pers0 = s.pers0 := rfl
@[simp] theorem performHash_pers1 (s : State) : (performHash s).pers1 = s.pers1 := rfl
@[simp] theorem performHash_saltIn0 (s : State) : (performHash s).saltIn0 = s.saltIn0 := rfl
@[simp] theorem performHash_saltIn1 (s : State) : (performHash s).saltIn1 = s.saltIn1 := rfl
@[simp] theorem performHash_persIn0 (s : State) : (performHash s).persIn0 = s.persIn0 := rfl
@[simp] theorem performHash_persIn1 (s : State) : (performHash s).persIn1 = s.persIn1 := rfl
@[simp] theorem performHash_msgLen (s : State) : (performHash s).msgLen = s.msgLen := rfl
@[simp] theorem performHash_busy (s : State) : (performHash s).busy = true := rfl
@[simp] theorem performHash_done (s : State) : (performHash s).done = false := rfl
@[simp] theorem performHash_cfg (s : State) : (performHash s).cfg = s.cfg := rfl
@[simp] theorem performHash_err (s : State) : (performHash s).err = s.err := rfl
@[simp] theorem performHash_ovr (s : State) : (performHash s).ovr = s.ovr := rfl
@[simp] theorem performHash_errcode (s : State) : (performHash s).errcode = s.errcode := rfl
@[simp] theorem performHash_errinfo (s : State) : (performHash s).errinfo = s.errinfo := rfl
@[simp] theorem performHash_digest (s : State) : (performHash s).digest = s.digest := rfl
@[simp] theorem performHash_outLen (s : State) : (performHash s).outLen = s.outLen := rfl
@[simp] theorem performHash_mem (s : State) : (performHash s).mem = s.mem := rfl
@[simp] theorem performHash_keyPolicy (s : State) : (performHash s).keyPolicy = s.keyPolicy := rfl
@[simp] theorem performHash_agenda (s : State) : (performHash s).agenda = s.agenda := rfl
@[simp] theorem performHash_hostReads (s : State) : (performHash s).hostReads = s.hostReads := rfl
@[simp] theorem performHash_overwritten (s : State) : (performHash s).overwritten = [] := rfl
@[simp] theorem performHash_calls (s : State) : (performHash s).calls = s.calls + 1 := rfl

end Sys2Proof.Laws
end

