-- ==== Sys2Proof/Laws/Words.lean ====
section
/-! SUPPORT. Words and bytes: LE64 and BYTES64 are inverse (R12), the two halves of a 16-byte value, the words of the
parameter block (R32), the digest registers. -/

namespace Sys2Proof.Laws

open Sys2Proof.Machine

/-- Packing the eight bytes of a word gives the word back. -/
@[simp] theorem le64_byteOf (w : Word) : le64 (byteOf w) = w := by
  apply BitVec.eq_of_getLsbD_eq
  intro i hi
  simp only [le64, byteOf, BitVec.getLsbD_append, BitVec.getLsbD_extractLsb']
  split_ifs <;> (rw [decide_eq_true (by omega), Bool.true_and]; congr 1; omega)

/-- Byte `k` of eight packed bytes is the `k`-th of them. -/
theorem byteOf_le64 (b : Nat → Byte) (k : Nat) (hk : k < 8) : byteOf (le64 b) k = b k := by
  apply BitVec.eq_of_getLsbD_eq
  intro i hi
  have : k = 0 ∨ k = 1 ∨ k = 2 ∨ k = 3 ∨ k = 4 ∨ k = 5 ∨ k = 6 ∨ k = 7 := by omega
  rcases this with h | h | h | h | h | h | h | h <;> subst h <;>
    simp only [le64, byteOf, BitVec.getLsbD_append, BitVec.getLsbD_extractLsb'] <;>
    split_ifs <;> first | omega | (rw [decide_eq_true hi, Bool.true_and]; congr 1; omega)

/-- LE64 depends on its eight bytes only. -/
theorem le64_congr (b c : Nat → Byte) (h : ∀ k, k < 8 → b k = c k) : le64 b = le64 c := by
  simp only [le64, h 0 (by omega), h 1 (by omega), h 2 (by omega), h 3 (by omega), h 4 (by omega), h 5 (by omega),
    h 6 (by omega), h 7 (by omega)]

/-- The parameter block of eight zero bytes packs to 0. -/
theorem le64_zero : le64 (fun _ => 0#8) = 0#64 := by decide

theorem pblk_salt (d k : Byte) (salt pers : Nat → Byte) (n : Nat) (h1 : 32 ≤ n) (h2 : n < 48) :
    pblk d k salt pers n = salt (n - 32) := by
  unfold pblk
  rw [if_neg (by omega), if_neg (by omega), if_neg (by omega), if_neg (by omega), if_neg (by omega), if_pos h2]

theorem pblk_pers (d k : Byte) (salt pers : Nat → Byte) (n : Nat) (h1 : 48 ≤ n) (h2 : n < 64) :
    pblk d k salt pers n = pers (n - 48) := by
  unfold pblk
  rw [if_neg (by omega), if_neg (by omega), if_neg (by omega), if_neg (by omega), if_neg (by omega),
    if_neg (by omega), if_pos h2]

/-- P[4] and P[5] are the two salt words (R32, R121). -/
theorem pword_salt0 (s : State) : pword (pbView s) 4 = s.salt0 := by
  rw [← le64_byteOf s.salt0]
  refine le64_congr _ _ fun k hk => ?_
  rw [pbView, pblk_salt _ _ _ _ _ (by omega) (by omega), byteOfPair, if_pos (by omega)]
  congr 1
  omega

theorem pword_salt1 (s : State) : pword (pbView s) 5 = s.salt1 := by
  rw [← le64_byteOf s.salt1]
  refine le64_congr _ _ fun k hk => ?_
  rw [pbView, pblk_salt _ _ _ _ _ (by omega) (by omega), byteOfPair, if_neg (by omega)]
  congr 1
  omega

/-- P[6] and P[7] are the two personalization words (R32, R121). -/
theorem pword_pers0 (s : State) : pword (pbView s) 6 = s.pers0 := by
  rw [← le64_byteOf s.pers0]
  refine le64_congr _ _ fun k hk => ?_
  rw [pbView, pblk_pers _ _ _ _ _ (by omega) (by omega), byteOfPair, if_pos (by omega)]
  congr 1
  omega

theorem pword_pers1 (s : State) : pword (pbView s) 7 = s.pers1 := by
  rw [← le64_byteOf s.pers1]
  refine le64_congr _ _ fun k hk => ?_
  rw [pbView, pblk_pers _ _ _ _ _ (by omega) (by omega), byteOfPair, if_neg (by omega)]
  congr 1
  omega

/-- P[1], P[2] and P[3] are 0 always (R32). -/
theorem pword_zero (s : State) (k : Nat) (h : k = 1 ∨ k = 2 ∨ k = 3) : pword (pbView s) k = 0#64 := by
  rw [← le64_zero]
  refine le64_congr _ _ fun j hj => ?_
  have : pblk s.dlen s.klen (byteOfPair s.salt0 s.salt1) (byteOfPair s.pers0 s.pers1) (8 * k + j) = 0#8 := by
    unfold pblk
    rw [if_neg (by omega), if_neg (by omega), if_neg (by omega), if_neg (by omega), if_pos (by omega)]
  exact this

/-- The registers DIGEST0..DIGEST7 of the bytes of a chaining value are its words (R39, R218). -/
theorem digestWord_digestBytes (h : Vector Word 8) (k : Fin 8) : digestWord (digestBytes h) k.val = h[k] := by
  rw [← le64_byteOf h[k]]
  refine le64_congr _ _ fun j hj => ?_
  have hlt : 8 * k.val + j < 64 := by omega
  have h1 : (8 * k.val + j) / 8 = k.val := by omega
  have h2 : (8 * k.val + j) % 8 = j := by omega
  simp only [digestByte, dif_pos hlt, digestBytes, Vector.getElem_ofFn, h1, h2]
  rfl

end Sys2Proof.Laws
end

