-- ==== Sys2Proof/Laws/Operations.lean ====
section
/-! SUPPORT. For each shared operation what it can do, once: the command gate, register writes, the lanes of a mixing
step, message words, the successor of a step, and what a whole step can be. -/

namespace Sys2Proof.Laws

open Sys2Proof.Machine

/-! ## Words -/

theorem append_toNat {m n : Nat} (a : BitVec m) (b : BitVec n) : (a ++ b).toNat = 2 ^ n * a.toNat + b.toNat := by
  rw [BitVec.toNat_append, Nat.two_pow_add_eq_or_of_lt b.isLt, Nat.shiftLeft_eq, Nat.mul_comm]

/-- R91: a command word is OP + 2^8 A + 2^16 B. -/
theorem commandWord_toNat (b a op : BitVec 8) :
    (commandWord b a op).toNat = op.toNat + 256 * a.toNat + 65536 * b.toNat := by
  simp only [commandWord, append_toNat]
  simp
  omega

/-- R161: a rotation by 1 to 63 places loses nothing. -/
theorem rotr64_injective (n : Nat) (h0 : 0 < n) (hn : n < 64) (x y : Word) (h : rotr64 x n = rotr64 y n) : x = y := by
  apply BitVec.eq_of_getLsbD_eq
  intro i hi
  have h' := congrArg (fun w => w.getLsbD (if n ≤ i then i - n else i + (64 - n))) h
  simp only [rotr64, BitVec.getLsbD_or, BitVec.getLsbD_ushiftRight, BitVec.getLsbD_shiftLeft] at h'
  split_ifs at h' with hc
  · rw [show n + (i - n) = i by omega, show decide (i - n < 64 - n) = true by simp; omega] at h'
    simpa using h'
  · rw [BitVec.getLsbD_of_ge x _ (by omega), BitVec.getLsbD_of_ge y _ (by omega),
      show decide (i + (64 - n) < 64) = true by simp; omega,
      show decide (i + (64 - n) < 64 - n) = false by simp, show i + (64 - n) - (64 - n) = i by omega] at h'
    simpa using h'

/-! ## Commands -/

/-- R96: what a command write comes to. -/
theorem commandGate_cases (w : BitVec 32) (n : Bool) (f : State → State) (s : State) :
    (s.busy = true ∧ commandGate w n f s = discardBusy s) ∨
    (s.busy = false ∧ s.err = true ∧ commandGate w n f s = s) ∨
    (s.busy = false ∧ s.err = false ∧ n = true ∧ s.cfg = false ∧ commandGate w n f s = raise .notConfigured w s) ∨
    (s.busy = false ∧ s.err = false ∧ (n = true → s.cfg = true) ∧ commandGate w n f s = f s) := by
  unfold commandGate
  cases s.busy <;> cases s.err <;> cases n <;> cases s.cfg <;> simp

/-- R286: what a write of an illegal word to CMD comes to. -/
theorem illegalCommand_cases (w : BitVec 32) (s : State) :
    (s.busy = true ∧ illegalCommand w s = discardBusy s) ∨
    (s.busy = false ∧ s.err = true ∧ illegalCommand w s = s) ∨
    (s.busy = false ∧ s.err = false ∧ illegalCommand w s = raise .illegalCommand w s) := by
  unfold illegalCommand commandGate
  cases s.busy <;> cases s.err <;> simp

theorem digestLengthOk_iff (d : BitVec 8) : digestLengthOk d = true ↔ 1 ≤ d.toNat ∧ d.toNat ≤ 64 := by
  simp [digestLengthOk]

theorem keyLengthOk_iff (k : BitVec 8) : keyLengthOk k = true ↔ k.toNat ≤ 64 := by
  simp [keyLengthOk]

theorem keyRefused_iff (k : BitVec 8) (p : KeyPolicy) : keyRefused k p = true ↔ 0 < k.toNat ∧ p = .reject := by
  simp [keyRefused]

theorem moreBlocks_iff (s : State) : moreBlocks s = true ↔ s.offset.toNat + 128 < s.len.toNat := by
  simp [moreBlocks]

/-- R92: the value of a HostWrite to CMD is a command word. -/
theorem command_value (v : BitVec 64) (hv : v.toNat < 2 ^ regWidth 0) : ∃ w : BitVec 32, v = w.setWidth 64 := by
  refine ⟨v.setWidth 32, BitVec.eq_of_toNat_eq ?_⟩
  simp [regWidth] at hv ⊢
  omega

/-- R92: what a HostWrite comes to when its value fits the register. -/
theorem fetchWrite_fits (reg : Nat) (v : BitVec 64) (s : State) (hv : v.toNat < 2 ^ regWidth reg) :
    fetchWrite reg v s =
      if reg = 0 then
        match decodeCommand (v.setWidth 32) with
        | .ok i => .runs i
        | .error _ => .ends (.next (illegalCommand (v.setWidth 32) s))
      else .ends (.next (writeRegister reg v s)) :=
  if_neg (Nat.not_le.mpr hv)

/-! ## Message bytes and words -/

theorem olderBytes_overwritten {s : State} {a : Nat} {b : Byte} (h : b ∈ olderBytes s a) : (a, b) ∈ s.overwritten := by
  simp only [olderBytes, List.mem_map, List.mem_filter] at h
  obtain ⟨⟨x, y⟩, ⟨h1, h2⟩, rfl⟩ := h
  simp at h2
  subst h2
  exact h1

/-- R141, R142: byte `n` of message word `p`. -/
theorem byteOf_msgWord (msg : Nat → Byte) (len p : Nat) (n : Fin 8) :
    byteOf (msgWord msg len p) n.val = if 8 * p + n.val < len then msg (8 * p + n.val) else 0#8 := by
  rw [msgWord, byteOf_le64 _ _ n.isLt, msgByte]

/-- R141: a block depends on the message bytes below LEN only. -/
theorem block_congr (msg msg' : Nat → Byte) (len b : Nat) (h : ∀ a, a < len → msg a = msg' a) :
    block msg len b = block msg' len b := by
  unfold block msgWord msgByte
  congr 1
  funext j
  congr 1
  funext n
  split_ifs with hh
  · exact h _ hh
  · rfl

theorem digestBytes_get (h : Vector Word 8) (k j : Fin 8) : (digestBytes h)[8 * k.val + j.val] = byteOf h[k] j.val := by
  have h1 : (8 * k.val + j.val) / 8 = k.val := by omega
  have h2 : (8 * k.val + j.val) % 8 = j.val := by omega
  simp [digestBytes, h1, h2]

/-! ## Lanes -/

/-- R181: the four lanes of an application are distinct. -/
theorem quad_distinct (i : Fin 8) :
    (quad i).a ≠ (quad i).b ∧ (quad i).a ≠ (quad i).c ∧ (quad i).a ≠ (quad i).d ∧
    (quad i).b ≠ (quad i).c ∧ (quad i).b ≠ (quad i).d ∧ (quad i).c ≠ (quad i).d := by
  revert i; decide

/-- R181: two applications of one group share no lane. -/
theorem quad_disjoint (i j : Fin 8) (h : i.val < 4 ↔ j.val < 4) (hij : i ≠ j) :
    ∀ l ∈ [(quad i).a, (quad i).b, (quad i).c, (quad i).d],
      l ∉ [(quad j).a, (quad j).b, (quad j).c, (quad j).d] := by
  revert i j; decide

/-- Lane `l` after the four lanes of a quadruple are replaced. -/
theorem setLanes_get (v : Vector Word 16) (q : Quad (Fin 16)) (w : Quad Word) (l : Fin 16) :
    (setLanes v q w)[l] = if l = q.d then w.d else if l = q.c then w.c else if l = q.b then w.b
      else if l = q.a then w.a else v[l] := by
  simp only [setLanes, Fin.getElem_fin, Vector.getElem_set, Fin.ext_iff, eq_comm]

/-- Replacing lanes outside a quadruple leaves that quadruple's words. -/
theorem lanes_setLanes (v : Vector Word 16) (q p : Quad (Fin 16)) (w : Quad Word)
    (h : ∀ l ∈ [q.a, q.b, q.c, q.d], l ∉ [p.a, p.b, p.c, p.d]) : lanes (setLanes v p w) q = lanes v q := by
  simp only [lanes, setLanes_get]
  simp only [List.mem_cons, List.not_mem_nil, or_false, forall_eq_or_imp, forall_eq, not_or] at h
  simp [h]

/-! ## The sequencer -/

theorem phaseOf_seqWord (p : Phase) (r : BitVec 4) (i : BitVec 3) : (seqWord p r i).extractLsb' 7 4 = phaseCode p := by
  apply BitVec.eq_of_getLsbD_eq
  intro k hk
  simp only [seqWord, BitVec.getLsbD_extractLsb', BitVec.getLsbD_append]
  rw [if_neg (by omega), if_neg (by omega), decide_eq_true hk, Bool.true_and]
  congr 1
  omega

theorem seqProduced_seqWord (p : Phase) : seqProduced (seqWord p 0 0) = true := by
  cases p <;> decide

theorem mixSuccessor_produced (r : BitVec 4) (i : BitVec 3) :
    r.toNat < 12 → seqProduced (mixSuccessor r i) = true := by
  revert r i; decide

/-- R163: after a MIX step the phase is MIX or FOLD. -/
theorem mixSuccessor_phase (r : BitVec 4) (i : BitVec 3) :
    5 ≤ ((mixSuccessor r i).extractLsb' 7 4).toNat ∧ ((mixSuccessor r i).extractLsb' 7 4).toNat ≤ 6 := by
  revert r i; decide

/-- A MIX step with a round index of the table. -/
theorem exec_mix (r : BitVec 4) (i : BitVec 3) (s : State) (hr : r.toNat < 12) :
    exec (.mix r i) s = .next { s with v := gStep s.m ⟨r.toNat, hr⟩ i.toFin s.v, seq := mixSuccessor r i } := by
  show execMix r i s = _
  rw [execMix, dif_pos hr]

/-- A well-formed instruction always has a next state. -/
theorem exec_wellFormed (i : Instr) (s : State) (h : wellFormed i = true) : ∃ t, exec i s = .next t := by
  cases i with
  | mix r j => exact ⟨_, exec_mix r j s (by simpa [wellFormed] using h)⟩
  | _ => exact ⟨_, rfl⟩

/-! ## A step -/

theorem step_of_runs {s : State} {i : Instr} (h : fetchTurn (nextTurn s) (afterTurn s) = .runs i) :
    step s = exec i (afterTurn s) := by
  simp only [step, h]

theorem step_of_ends {s : State} {r : Result} (h : fetchTurn (nextTurn s) (afterTurn s) = .ends r) : step s = r := by
  simp only [step, h]

/-- What a step that gives a next state can be. -/
theorem step_cases {s t : State} (h : step s = .next t) :
    (∃ i, nextTurn s = .engine ∧ decodeSeq s.seq = .ok i ∧ exec i (afterTurn s) = .next t) ∨
    (∃ w i, WritesCommand s w ∧ decodeCommand w = .ok i ∧ exec i (afterTurn s) = .next t) ∨
    (∃ w e, WritesCommand s w ∧ decodeCommand w = .error e ∧ t = illegalCommand w (afterTurn s)) ∨
    (∃ reg v, nextTurn s = .write reg v ∧ reg ≠ 0 ∧ v.toNat < 2 ^ regWidth reg ∧
      t = writeRegister reg v (afterTurn s)) ∨
    (∃ reg, nextTurn s = .read reg ∧ t = hostRead reg (afterTurn s)) ∨
    (∃ a b, nextTurn s = .store a b ∧ t = hostStore a.toNat b (afterTurn s)) ∨
    (nextTurn s = .reset ∧ t = resetAction (afterTurn s)) := by
  unfold step at h
  cases hn : nextTurn s with
  | engine =>
    simp only [hn, fetchTurn, fetchEngine, afterTurn_seq] at h
    cases hd : decodeSeq s.seq with
    | ok i => rw [hd] at h; exact .inl ⟨i, rfl, rfl, h⟩
    | error e => rw [hd] at h; cases h
  | write reg v =>
    by_cases hv : v.toNat < 2 ^ regWidth reg
    · rw [hn] at h
      simp only [fetchTurn, fetchWrite_fits reg v _ hv] at h
      by_cases h0 : reg = 0
      · subst h0
        obtain ⟨w, rfl⟩ := command_value v hv
        rw [if_pos rfl, BitVec.setWidth_setWidth_of_le w (by omega), BitVec.setWidth_eq] at h
        cases hd : decodeCommand w with
        | ok i => rw [hd] at h; exact .inr (.inl ⟨w, i, hn, hd, h⟩)
        | error e => rw [hd] at h; cases h; exact .inr (.inr (.inl ⟨w, e, hn, hd, rfl⟩))
      · rw [if_neg h0] at h
        cases h
        exact .inr (.inr (.inr (.inl ⟨reg, v, rfl, h0, hv, rfl⟩)))
    · rw [hn] at h
      simp only [fetchTurn, fetchWrite] at h
      rw [if_pos (by omega)] at h
      cases h
  | read reg => rw [hn] at h; cases h; exact .inr (.inr (.inr (.inr (.inl ⟨reg, rfl, rfl⟩))))
  | store a b => rw [hn] at h; cases h; exact .inr (.inr (.inr (.inr (.inr (.inl ⟨a, b, rfl, rfl⟩)))))
  | reset => rw [hn] at h; cases h; exact .inr (.inr (.inr (.inr (.inr (.inr ⟨rfl, rfl⟩)))))

/-! ## Runs of steps -/

theorem stepN_succ (n : Nat) (s : State) :
    stepN (n + 1) s = match step s with
      | .next t => stepN n t
      | .fault r => .fault r
      | .refused r => .refused r := rfl

/-- Steps compose. -/
theorem stepN_add {a b : Nat} {s t : State} (h : stepN a s = .next t) : stepN (a + b) s = stepN b t := by
  induction a generalizing s with
  | zero => cases h; simp
  | succ n ih =>
    rw [stepN_succ] at h
    rw [show n + 1 + b = (n + b) + 1 by omega, stepN_succ]
    cases hs : step s with
    | next u => rw [hs] at h; exact ih h
    | fault r => rw [hs] at h; cases h
    | refused r => rw [hs] at h; cases h

end Sys2Proof.Laws
end

