-- ==== Sys2Proof/Laws/PerInstr.lean ====
section
/-! SUPPORT. Per instruction: its encoded word matches its row of the opcode table (30_encoding.md R94, R97) under that
row's mask, and no other row of the same format. -/

namespace Sys2Proof.Laws.OpcodeRow

/-- The mask and the pattern of each instruction's row of R94. -/
def commandRows : List (BitVec 32 × BitVec 32) :=
  [(0xFF0000FF#32, 1#32), (0xFFFF00FF#32, 2#32), (0xFFFFFFFF#32, 3#32), (0xFFFFFFFF#32, 4#32), (0xFFFFFFFF#32, 5#32),
   (0xFFFFFFFF#32, 6#32)]

/-- The mask and the pattern of each row of R97. -/
def sequencerRows : List (BitVec 11 × BitVec 11) :=
  [(0x7FF, 0x000), (0x7FF, 0x080), (0x7FF, 0x100), (0x7FF, 0x180), (0x7FF, 0x200), (0x780, 0x280), (0x7FF, 0x300),
   (0x7FF, 0x380), (0x7FF, 0x400)]

/-- The place of an instruction's row in the table of its format. -/
def rowOf : Instr → Nat
  | .init _ _ => 0
  | .setDlen _ => 1
  | .setSalt => 2
  | .setPers => 3
  | .hash => 4
  | .clrErr => 5
  | .idle => 0
  | .start => 1
  | .check => 2
  | .load => 3
  | .vinit => 4
  | .mix _ _ => 5
  | .fold => 6
  | .next => 7
  | .out => 8

/-- Whether a word matches each row of its format, row by row. -/
def matched : Encoded → List Bool
  | .command w => commandRows.map fun row => decide (w &&& row.1 = row.2)
  | .sequencer w => sequencerRows.map fun row => decide (w &&& row.1 = row.2)

/-- The instruction's word matches exactly its own row. -/
def Statement (i : Instr) : Prop :=
  (matched (encode i)).getD (rowOf i) false = true ∧ (matched (encode i)).count true = 1

theorem low_byte (b a op : BitVec 8) (mask pat : BitVec 32) (h : (mask &&& 0xFF#32) = 0xFF#32)
    (hne : op.setWidth 32 ≠ pat &&& 0xFF#32) : commandWord b a op &&& mask ≠ pat := by
  intro he
  apply hne
  rw [← he, BitVec.and_assoc, h]
  apply BitVec.eq_of_getLsbD_eq
  intro i hi
  simp only [commandWord, BitVec.getLsbD_and, BitVec.getLsbD_append, BitVec.getLsbD_setWidth]
  interval_cases i <;> simp

theorem init (d k : BitVec 8) : Statement (.init d k) := by
  have h : initWord d k &&& 0xFF0000FF#32 = 1#32 := by
    apply BitVec.eq_of_getLsbD_eq
    intro i hi
    simp only [initWord, commandWord, BitVec.getLsbD_and, BitVec.getLsbD_append]
    interval_cases i <;> simp
  have h2 := low_byte k d 0x01#8 0xFFFF00FF#32 2#32 (by decide) (by decide)
  have h3 := low_byte k d 0x01#8 0xFFFFFFFF#32 3#32 (by decide) (by decide)
  have h4 := low_byte k d 0x01#8 0xFFFFFFFF#32 4#32 (by decide) (by decide)
  have h5 := low_byte k d 0x01#8 0xFFFFFFFF#32 5#32 (by decide) (by decide)
  have h6 := low_byte k d 0x01#8 0xFFFFFFFF#32 6#32 (by decide) (by decide)
  have e : matched (encode (.init d k)) = [true, false, false, false, false, false] := by
    simp only [matched, encode, commandRows, List.map_cons, List.map_nil]
    rw [decide_eq_true h, show initWord d k = commandWord k d 0x01#8 from rfl, decide_eq_false h2, decide_eq_false h3, decide_eq_false h4,
      decide_eq_false h5, decide_eq_false h6]
  exact ⟨by rw [e]; rfl, by rw [e]; rfl⟩

theorem setDlen (n : BitVec 8) : Statement (.setDlen n) := by
  have h : setDlenWord n &&& 0xFFFF00FF#32 = 2#32 := by
    apply BitVec.eq_of_getLsbD_eq
    intro i hi
    simp only [setDlenWord, commandWord, BitVec.getLsbD_and, BitVec.getLsbD_append]
    interval_cases i <;> simp
  have h1 := low_byte 0#8 n 0x02#8 0xFF0000FF#32 1#32 (by decide) (by decide)
  have h3 := low_byte 0#8 n 0x02#8 0xFFFFFFFF#32 3#32 (by decide) (by decide)
  have h4 := low_byte 0#8 n 0x02#8 0xFFFFFFFF#32 4#32 (by decide) (by decide)
  have h5 := low_byte 0#8 n 0x02#8 0xFFFFFFFF#32 5#32 (by decide) (by decide)
  have h6 := low_byte 0#8 n 0x02#8 0xFFFFFFFF#32 6#32 (by decide) (by decide)
  have e : matched (encode (.setDlen n)) = [false, true, false, false, false, false] := by
    simp only [matched, encode, commandRows, List.map_cons, List.map_nil]
    rw [decide_eq_true h, show setDlenWord n = commandWord 0#8 n 0x02#8 from rfl, decide_eq_false h1, decide_eq_false h3, decide_eq_false h4,
      decide_eq_false h5, decide_eq_false h6]
  exact ⟨by rw [e]; rfl, by rw [e]; rfl⟩

theorem setSalt : Statement .setSalt := by unfold Statement; decide
theorem setPers : Statement .setPers := by unfold Statement; decide
theorem hash : Statement .hash := by unfold Statement; decide
theorem clrErr : Statement .clrErr := by unfold Statement; decide
theorem idle : Statement .idle := by unfold Statement; decide
theorem start : Statement .start := by unfold Statement; decide
theorem check : Statement .check := by unfold Statement; decide
theorem load : Statement .load := by unfold Statement; decide
theorem vinit : Statement .vinit := by unfold Statement; decide

theorem mix (r : BitVec 4) (i : BitVec 3) : Statement (.mix r i) := by
  unfold Statement
  revert r i
  decide

theorem fold : Statement .fold := by unfold Statement; decide
theorem next : Statement .next := by unfold Statement; decide
theorem out : Statement .out := by unfold Statement; decide

end Sys2Proof.Laws.OpcodeRow
end

