-- ==== Sys2Proof/Tests/Slice0.lean ====
section
/-! SUPPORT. The model's own tests: well-formedness, decoding of words written out bit by bit (30_encoding.md R91, R94,
R97), single steps against the numbers of 95_test_vectors.md, and a witness for the hypotheses of each obligation. -/

namespace Sys2Proof.Tests

open Sys2Proof.Machine

/-! ## Helpers -/

/-- The outcome is a next state with property `p`. -/
def nextHas (r : Result) (p : State → Bool) : Bool :=
  match r with
  | .next t => p t
  | .fault _ => false
  | .refused _ => false

/-- The outcome is that fault. -/
def faults (r : Result) (f : Fault) : Bool :=
  match r with
  | .next _ => false
  | .fault g => decide (g = f)
  | .refused _ => false

/-- The outcome is that refusal. -/
def refuses (r : Result) (f : Refusal) : Bool :=
  match r with
  | .next _ => false
  | .fault _ => false
  | .refused g => decide (g = f)

/-- The decoder gives that instruction. -/
def decodes (e : Except DecodeError Instr) (i : Instr) : Bool :=
  match e with
  | .ok j => decide (j = i)
  | .error _ => false

/-- The decoder refuses for that reason. -/
def rejects (e : Except DecodeError Instr) (d : DecodeError) : Bool :=
  match e with
  | .ok _ => false
  | .error g => decide (g = d)

/-- After reset and an accepted INIT 64, 0. -/
def configured : State := { State.reset with dlen := 64, cfg := true }

/-- "abc" in the message space. -/
def abc : Memory := [(0, 0x61), (1, 0x62), (2, 0x63)]

/-- A hash call of "abc" that was just accepted. -/
def called : State := { configured with mem := abc, msgLen := 3, len := 3, busy := true, seq := 0x080#11, calls := 1 }

/-- An engine in the error state. -/
def errored : State := { State.reset with err := true, errcode := 4, errinfo := 5 }

/-- The host's next turn is a write of a command word. -/
def commands (s : State) (w : BitVec 32) : State := { s with agenda := [.write 0 (w.setWidth 64)] }

/-- V after VINIT in the trace of 95_test_vectors.md section 4. -/
def traceV : Vector Word 16 :=
  #v[0x6A09E667F2BDC948, 0xBB67AE8584CAA73B, 0x3C6EF372FE94F82B, 0xA54FF53A5F1D36F1,
     0x510E527FADE682D1, 0x9B05688C2B3E6C1F, 0x1F83D9ABFB41BD6B, 0x5BE0CD19137E2179,
     0x6A09E667F3BCC908, 0xBB67AE8584CAA73B, 0x3C6EF372FE94F82B, 0xA54FF53A5F1D36F1,
     0x510E527FADE682D1, 0x9B05688C2B3E6C1F, 0xE07C265404BE4294, 0x5BE0CD19137E2179]

/-- H0 of V2.1, 95_test_vectors.md section 2.1. -/
def traceH : Vector Word 8 :=
  #v[0x6A09E667F2BDC948, 0xBB67AE8584CAA73B, 0x3C6EF372FE94F82B, 0xA54FF53A5F1D36F1,
     0x510E527FADE682D1, 0x9B05688C2B3E6C1F, 0x1F83D9ABFB41BD6B, 0x5BE0CD19137E2179]

/-! ## Well-formedness (R99, R163) -/

theorem test_wellFormed_accepts_round_11 : wellFormed (.mix 11 7) = true := by decide
theorem test_wellFormed_refuses_round_12 : wellFormed (.mix 12 0) = false := by decide
theorem test_wellFormed_refuses_round_15 : wellFormed (.mix 15 7) = false := by decide

/-! ## Decoding: words written from the encodings of R94 and R97, field by field -/

theorem test_decode_init : decodes (decodeCommand 0b00000000000001010001010000000001#32) (.init 20 5) = true := by decide
theorem test_decode_setDlen : decodes (decodeCommand 0b00000000000000000001000000000010#32) (.setDlen 16) = true := by
  decide
theorem test_decode_setSalt : decodes (decodeCommand 0b00000000000000000000000000000011#32) .setSalt = true := by decide
theorem test_decode_setPers : decodes (decodeCommand 0b00000000000000000000000000000100#32) .setPers = true := by decide
theorem test_decode_hash : decodes (decodeCommand 0b00000000000000000000000000000101#32) .hash = true := by decide
theorem test_decode_clrErr : decodes (decodeCommand 0b00000000000000000000000000000110#32) .clrErr = true := by decide
theorem test_decode_idle : decodes (decodeSeq 0b00000000000#11) .idle = true := by decide
theorem test_decode_start : decodes (decodeSeq 0b00010000000#11) .start = true := by decide
theorem test_decode_check : decodes (decodeSeq 0b00100000000#11) .check = true := by decide
theorem test_decode_load : decodes (decodeSeq 0b00110000000#11) .load = true := by decide
theorem test_decode_vinit : decodes (decodeSeq 0b01000000000#11) .vinit = true := by decide
theorem test_decode_mix : decodes (decodeSeq 0b01010011101#11) (.mix 3 5) = true := by decide
theorem test_decode_fold : decodes (decodeSeq 0b01100000000#11) .fold = true := by decide
theorem test_decode_next : decodes (decodeSeq 0b01110000000#11) .next = true := by decide
theorem test_decode_out : decodes (decodeSeq 0b10000000000#11) .out = true := by decide

/-- R95: the illegal words of 95_test_vectors.md section 8.2, lines 12, 14, 16, 18, 20. -/
theorem test_decode_illegal_commands :
    (rejects (decodeCommand 0x00000007#32) (.illegalCommand 0x00000007#32) &&
     rejects (decodeCommand 0x00000000#32) (.illegalCommand 0x00000000#32) &&
     rejects (decodeCommand 0x01004001#32) (.illegalCommand 0x01004001#32) &&
     rejects (decodeCommand 0x00012002#32) (.illegalCommand 0x00012002#32) &&
     rejects (decodeCommand 0x00000105#32) (.illegalCommand 0x00000105#32)) = true := by decide

/-- R99: PHASE 9, a MIX round of 12, an index outside MIX. -/
theorem test_decode_never_produced :
    (rejects (decodeSeq 0b10010000000#11) (.phaseNeverProduced 0x480#11) &&
     rejects (decodeSeq 0b01011100000#11) (.roundNeverProduced 0x2E0#11) &&
     rejects (decodeSeq 0b00000000001#11) (.indexOutsideMix 0x001#11)) = true := by decide

/-- opcode_table.json's numbering: 32-bit rows are commands, 16-bit rows sequencer words. -/
theorem test_decodeTableWord :
    decodeTableWord 32 0x00051401 = some (.init 20 5) ∧ decodeTableWord 16 0x29D = some (.mix 3 5) ∧
    decodeTableWord 16 0x000 = some .idle ∧ decodeTableWord 16 0x480 = none := by decide

/-- withFetchWord: the very next step runs the word, a command and a sequencer step. -/
theorem test_withFetchWord :
    (nextHas (step (State.reset.withFetchWord 32 0x00051401)) (fun t => t.cfg && t.dlen == 20 && t.klen == 5) &&
     nextHas (step (State.reset.withFetchWord 16 0x080)) (fun t => t.seq == 0x100#11)) = true := by decide

/-! ## Tables -/

/-- R42: every row of SIGMA is a permutation, rows 10 and 11 are copies of rows 0 and 1. -/
theorem test_sigma_rows :
    (∀ r : Fin 12, ∀ j : Fin 16, j ∈ sigmaTable[r].toList) ∧ sigmaTable[10] = sigmaTable[0] ∧
    sigmaTable[11] = sigmaTable[1] := by decide

/-- R41: the spec's check of IV, the xor of the eight words of V2.1's H0 with PWORDS. -/
theorem test_h0_of_V2_2 :
    h0 (pbView { State.reset with
      dlen := 32, salt0 := 0x0706050403020100, salt1 := 0x0F0E0D0C0B0A0908
      pers0 := 0x1716151413121110, pers1 := 0x1F1E1D1C1B1A1918 }) =
    #v[0x6A09E667F2BDC928, 0xBB67AE8584CAA73B, 0x3C6EF372FE94F82B, 0xA54FF53A5F1D36F1,
       0x5608577BAEE483D1, 0x940B658020346517, 0x0895CCBFE853AC7B, 0x44FED00508643861] := by decide

/-! ## Commands: 95_test_vectors.md sections 8.2 and 8.3 -/

/-- Line 26, and P3 line 3: the staged salt is taken. -/
theorem test_init_stores :
    nextHas (execInit 32 0 { State.reset with saltIn0 := 0x0706050403020100 })
      (fun t => t.cfg && t.dlen == 32 && t.klen == 0 && t.salt0 == 0x0706050403020100 && t.pers1 == 0 && !t.err) = true := by
  decide

/-- Line 10: DigestLengthRange comes before KeyLengthRange; CFG stays. -/
theorem test_init_digest_range_first :
    nextHas (execInit 0 65 State.reset) (fun t => statusWord t == 0x00000108#32 && t.errinfo == 0x00410001#32) = true := by
  decide

/-- Lines 27 and 31. -/
theorem test_setDlen_range_and_store :
    (nextHas (execSetDlen 0 configured) (fun t => statusWord t == 0x0000010C#32 && t.errinfo == 0x00000002#32) &&
     nextHas (execSetDlen 16 configured) (fun t => pword (pbView t) 0 == 0x0000000001010010#64)) = true := by decide

/-- Line 22: NotConfigured before the range. -/
theorem test_setDlen_not_configured :
    nextHas (execSetDlen 0 State.reset) (fun t => statusWord t == 0x00000408#32 && t.errinfo == 2#32) = true := by decide

/-- R254: both words from the staging registers. -/
theorem test_setSalt :
    nextHas (execSetSalt { configured with saltIn0 := 1, saltIn1 := 2, persIn0 := 3 })
      (fun t => t.salt0 == 1 && t.salt1 == 2 && t.pers0 == 0) = true := by decide

/-- P3 line 11: PB6 and PB7. -/
theorem test_setPers :
    nextHas (execSetPers { configured with persIn0 := 0x1716151413121110, persIn1 := 0x1F1E1D1C1B1A1918 })
      (fun t => pword (pbView t) 6 == 0x1716151413121110 && pword (pbView t) 7 == 0x1F1E1D1C1B1A1918) = true := by decide

/-- P1 line 3: STATUS = 0x00800005. -/
theorem test_hash :
    nextHas (execHash { configured with msgLen := 129 })
      (fun t => statusWord t == 0x00800005#32 && t.len == 129) = true := by decide

/-- Line 1. -/
theorem test_hash_not_configured :
    nextHas (execHash State.reset) (fun t => statusWord t == 0x00000408#32 && t.errinfo == 5#32) = true := by decide

/-- Line 28 and the end of section 8.3: CLR_ERR clears ERR, ERRCODE, ERRINFO and OVR, keeps CFG and DONE. -/
theorem test_clrErr :
    nextHas (execClrErr { configured with err := true, errcode := 1, errinfo := 2, ovr := true, done := true })
      (fun t => statusWord t == 0x00000006#32 && t.errinfo == 0) = true := by decide

/-- R257: discarded while busy. -/
theorem test_clrErr_busy : nextHas (execClrErr { called with ovr := false }) (fun t => t.ovr && t.busy) = true := by decide

/-- Section 8.2 after line 33: KEY_POLICY = reject refuses INIT 64, 5. -/
theorem test_key_policy_reject :
    nextHas (step { commands State.reset 0x00054001 with keyPolicy := .reject })
      (fun t => statusWord t == 0x00000308#32 && t.errinfo == 0x00054001#32) = true := by decide

/-- Line 12, by a step: OP = 7. -/
theorem test_illegal_command_step :
    nextHas (step (commands State.reset 7)) (fun t => statusWord t == 0x00000508#32 && t.errinfo == 7#32) = true := by decide

/-- Section 8.3: a write to MSG_LEN while busy, read as STATUS 0x01800015. -/
theorem test_write_while_busy :
    nextHas (step { called with seq := 0x180#11, agenda := [.write 8 99] })
      (fun t => statusWord t == 0x01800015#32 && t.msgLen == 3) = true := by decide

/-! ## Sequencer steps -/

theorem test_idle : nextHas (execIdle configured) (fun t => t == configured) = true := by decide

/-- V2.3: d = 1, k = 64. -/
theorem test_start :
    nextHas (execStart { configured with dlen := 1, klen := 64, t0 := 7, offset := 128, blk := 1, f0 := 1 })
      (fun t => t.h[0] == 0x6A09E667F2BD8909 && t.h[1] == 0xBB67AE8584CAA73B && t.t0 == 0 && t.offset == 0 && t.blk == 0 &&
        t.f0 == 0 && t.seq == 0x100#11) = true := by decide

/-- P3, first CHECK: LEN = 129. -/
theorem test_check_more :
    nextHas (execCheck { called with len := 129 }) (fun t => t.t0 == 128 && t.f0 == 0 && !t.final) = true := by decide

/-- P4: LEN = 128 is terminal at once; P3, second CHECK: 256 < 129 fails. -/
theorem test_check_terminal :
    (nextHas (execCheck { called with len := 128 }) (fun t => t.t0 == 128 && t.f0 == 0xFFFFFFFFFFFFFFFF && t.final) &&
     nextHas (execCheck { called with len := 129, offset := 128, t0 := 128 })
       (fun t => t.t0 == 129 && t.final && t.seq == 0x180#11)) = true := by decide

/-- Section 6: M[0] of "abc". -/
theorem test_load_abc :
    nextHas (execLoad called) (fun t => t.m[0] == 0x0000000000636261 && t.m[1] == 0 && t.m[15] == 0) = true := by decide

/-- P3: block 1 of 129 bytes reads one byte, whatever lies beyond. -/
theorem test_load_tail :
    nextHas (execLoad { called with mem := [(127, 0x55), (128, 0x90), (129, 0x77)], len := 129, blk := 1 })
      (fun t => t.m[0] == 0x0000000000000090 && t.m[1] == 0) = true := by decide

/-- Section 4: V after VINIT of the empty message. -/
theorem test_vinit :
    nextHas (execVinit { called with h := traceH, f0 := all1 }) (fun t => t.v == traceV && t.seq == 0x280#11) = true := by
  decide

/-- P4: V[12] with T0 = 128. -/
theorem test_vinit_counter :
    nextHas (execVinit { called with h := traceH, t0 := 128 }) (fun t => t.v[12] == 0x510E527FADE68251) = true := by decide

/-- Section 4: G(0,0) on lanes 0, 4, 8, 12. -/
theorem test_mix_first_column :
    nextHas (execMix 0 0 { called with v := traceV })
      (fun t => t.v[0] == 0xF0C9AA0DE38B9B89 && t.v[4] == 0xBBDF873400FEE49A && t.v[8] == 0x685EB2BC42983D3D &&
        t.v[12] == 0xF111FD8B64C5099D && t.v[1] == 0xBB67AE8584CAA73B && t.seq == 0x281#11) = true := by decide

/-- R42 and V3.11: MIX 1 3 takes x = M[13], y = M[6] and moves to MIX 1 4. -/
theorem test_mix_operands :
    nextHas (execMix 1 3 { called with
        v := ((((Vector.replicate 16 0).set 3 0x0123456789ABCDEF).set 7 0xFEDCBA9876543210).set 11
          0x0F1E2D3C4B5A6978).set 15 0x8796A5B4C3D2E1F0
        m := ((Vector.replicate 16 0).set 13 0x1111111111111111).set 6 0x2222222222222222 })
      (fun t => t.v[3] == 0xE95F405271D7B7C9 && t.v[7] == 0xA6C4A94D586303F4 && t.v[11] == 0xE54E59B99295056D &&
        t.v[15] == 0x036C3B9CB0B2E750 && t.seq == 0x28C#11) = true := by decide

/-- Sections 3.1 (rotations by 63 and 24) and 3.2 (V3.2, every addition wraps). -/
theorem test_rotr64_and_gq :
    rotr64 0x0123456789ABCDEF 63 = 0x02468ACF13579BDE ∧ rotr64 0x0123456789ABCDEF 24 = 0xABCDEF0123456789 ∧
    gq ⟨all1, all1, all1, all1⟩ all1 all1 =
      ⟨0x000000FFFFFFFDFC, 0xFBF801FBFE0403FD, 0xFDFC000200FDFFFE, 0xFDFC000000FDFFFF⟩ := by decide

/-- Section 4: H[0] after FOLD from V[0], V[8] after round 11, and OUT next. -/
theorem test_fold_final :
    nextHas (execFold { called with
        h := traceH, final := true
        v := ((Vector.replicate 16 0).set 0 0xF073BFFAF051091C).set 8 0x992358DFF5EEAA2C })
      (fun t => t.h[0] == 0x03590142F7026A78 && t.h[1] == 0xBB67AE8584CAA73B && t.seq == 0x400#11) = true := by decide

theorem test_fold_not_final : nextHas (execFold { called with final := false }) (fun t => t.seq == 0x380#11) = true := by
  decide

/-- P3: NEXT gives BLK = 1, OFFSET = 128. -/
theorem test_next : nextHas (execNext called) (fun t => t.blk == 1 && t.offset == 128 && t.seq == 0x100#11) = true := by
  decide

/-- Section 4: the first and last digest bytes from H. -/
theorem test_out :
    nextHas (execOut { called with h := (traceH.set 0 0x03590142F7026A78).set 7 0xCEE29BFE1A706FD5 })
      (fun t => t.digest[0] == 0x78 && t.digest[7] == 0x03 && t.digest[63] == 0xCE && t.outLen == 64 && t.done && !t.busy &&
        t.seq == 0) = true := by decide

/-- R39: STATUS during MIX 3 5 of a call, section 8.1. -/
theorem test_status_word : readRegister { called with seq := 0x29D#11 } 1 = 0x029D0005#64 := by decide

/-- U10: a value too wide for CMD. -/
theorem test_too_wide :
    refuses (step { State.reset with agenda := [.write 0 0x100000000] }) (.hostValueTooWide 0 0x100000000) = true := by decide

/-- R320: Reset keeps the message space. -/
theorem test_reset_action :
    nextHas (step { called with agenda := [.reset] }) (fun t => t.mem == abc && !t.busy && !t.cfg && t.seq == 0) = true := by
  decide

/-! ## Witnesses: for each obligation, states and operands that meet its hypotheses, clause by clause -/

/-- The next turn of a state, its agenda put in front. -/
def turn (s : State) (x : Turn) : State := { s with agenda := [x] }

/-- A call of "abc" at OUT, during which byte 0 was overwritten. -/
def raced : State := { called with seq := 0x400#11, final := true, overwritten := [(0, 0x7A)] }

theorem witness_DecodeOfEncodedInstruction :
    wellFormed (.mix 11 7) = true ∧ wellFormed (.init 255 255) = true ∧ wellFormed .out = true := by decide

theorem witness_EncodeOfDecodedWord :
    decode (.sequencer 0x2DF#11) = .ok (.mix 11 7) ∧ decode (.command 0x00FFFF01#32) = .ok (.init 255 255) := ⟨rfl, rfl⟩

theorem witness_EngineTurnRunsDecodedStep :
    nextTurn called = .engine ∧ decodeSeq called.seq = .ok .start := ⟨rfl, rfl⟩

theorem witness_CommandWriteRunsDecodedCommand :
    WritesCommand (commands configured 5) 5 ∧ decodeCommand 5 = .ok .hash := ⟨rfl, rfl⟩

theorem witness_IllegalWordRaisesIllegalCommand :
    Accepting (commands State.reset 7) ∧ WritesCommand (commands State.reset 7) 7 ∧ ¬ LegalCommandWord 7 := by decide

theorem witness_NeverProducedSequencerWordFaults :
    nextTurn { State.reset with seq := 0x480#11 } = .engine ∧ seqProduced 0x480#11 = false ∧
    seqProduced 0x2E0#11 = false ∧ seqProduced 0x001#11 = false ∧ 12 ≤ (12#4).toNat ∧ 12 ≤ (15#4).toNat ∧
    faults (step { State.reset with seq := 0x2E0#11 }) (.seqNeverProduced 0x2E0#11) = true := by decide

theorem witness_TooWideHostValueIsRefused :
    nextTurn (turn State.reset (.write 2 0x100000000)) = .write 2 0x100000000 ∧ 2 ^ 32 ≤ (0x100000000#64).toNat ∧
    nextTurn (turn State.reset (.write 3 0x100)) = .write 3 0x100 ∧ 2 ^ 8 ≤ (0x100#64).toNat := by decide

theorem witness_HostWritesWhileBusyAreDiscarded :
    (called.busy = true ∧ nextTurn (turn called (.write 3 255)) = .write 3 255 ∧ (255#64).toNat < 2 ^ regWidth 3) ∧
    nextTurn (turn called (.read 24)) = .read 24 ∧
    (∃ t, step { called with ovr := true } = .next t ∧ nextTurn { called with ovr := true } ≠ .reset ∧
      ¬ ClearsError { called with ovr := true }) :=
  ⟨by decide, by decide, _, rfl, by decide, by decide⟩

theorem witness_StagingWritesStore :
    errored.busy = false ∧ nextTurn (turn errored (.write 4 all1)) = .write 4 all1 ∧
    nextTurn (turn errored (.write 5 1)) = .write 5 1 ∧ nextTurn (turn errored (.write 6 1)) = .write 6 1 ∧
    nextTurn (turn errored (.write 7 1)) = .write 7 1 ∧ nextTurn (turn errored (.write 8 all1)) = .write 8 all1 ∧
    (∃ t, exec .hash configured = .next t) :=
  ⟨by decide, by decide, by decide, by decide, by decide, by decide, _, rfl⟩

theorem witness_ReadOnlyAndReservedWritesAreDiscarded :
    State.reset.busy = false ∧ nextTurn (turn State.reset (.write 1 0xFFFFFFFF)) = .write 1 0xFFFFFFFF ∧
    (0xFFFFFFFF#64).toNat < 2 ^ regWidth 1 ∧ nextTurn (turn State.reset (.write 3 255)) = .write 3 255 ∧
    (255#64).toNat < 2 ^ regWidth 3 ∧ nextTurn (turn State.reset (.write 9 all1)) = .write 9 all1 ∧
    all1.toNat < 2 ^ regWidth 9 := by decide

theorem witness_RegisterMapReads :
    readRegister called 9 = 0 ∧ readRegister called 15 = 0 ∧ readRegister called 32 = 0 ∧
    readRegister called 16 = 0x0000000001010040#64 := by decide

theorem witness_HostStoreWritesOneByte :
    Memory.wf (turn called (.store 1 0)).mem ∧ nextTurn (turn called (.store 1 0)) = .store 1 0 ∧
    (turn configured (.store 1 0)).busy = false := by decide

theorem witness_RacedByteIsOldOrNew :
    called.busy = true ∧ (2#64).toNat < called.len.toNat ∧ nextTurn (turn called (.store 2 9)) = .store 2 9 := by decide

theorem witness_ResetLeavesSpecifiedValues : nextTurn (turn raced .reset) = .reset := by decide
theorem witness_ResetKeepsTheOutside : nextTurn (turn called .reset) = .reset := by decide

theorem witness_CommandsWhileBusySetOverrun : isCommand .clrErr = true ∧ called.busy = true := by decide

theorem witness_ErrorStateDiscardsCommands :
    errored.busy = false ∧ errored.err = true ∧ WritesCommand (commands errored 0x00004001) 0x00004001 ∧
    0x00004001#32 ≠ 0x00000006#32 ∧ nextTurn (turn errored (.write 4 1)) = .write 4 1 ∧
    nextTurn (turn errored (.write 8 1)) = .write 8 1 := by decide

theorem witness_UnconfiguredCommandsRaiseNotConfigured :
    Accepting State.reset ∧ State.reset.cfg = false ∧ encode (.setDlen 0) = .command 0x00000002#32 ∧
    encode .setSalt = .command 3#32 ∧ encode .setPers = .command 4#32 ∧ encode .hash = .command 5#32 := by decide

theorem witness_InitChecksThenStores :
    Accepting State.reset ∧ (0#8).toNat < 1 ∧ 64 < (65#8).toNat ∧ 1 ≤ (1#8).toNat ∧ (64#8).toNat ≤ 64 ∧
    ({ State.reset with keyPolicy := .reject } : State).keyPolicy = .reject ∧
    Accepting { State.reset with keyPolicy := .reject } ∧ State.reset.keyPolicy = .storeOnly := by decide

theorem witness_SetDlenChecksThenStores :
    Accepting configured ∧ configured.cfg = true ∧ (0#8).toNat < 1 ∧ 64 < (65#8).toNat ∧ 1 ≤ (1#8).toNat ∧
    (64#8).toNat ≤ 64 := by decide

theorem witness_SetSaltTakesStagedSalt : Accepting configured ∧ configured.cfg = true := by decide
theorem witness_SetPersTakesStagedPersonalization : Accepting configured ∧ configured.cfg = true := by decide
theorem witness_HashStartsTheCall : Accepting configured ∧ configured.cfg = true := by decide
theorem witness_ClrErrLeavesTheErrorState :
    errored.busy = false ∧ errored.err = true ∧ isCommand .hash = true ∧ Instr.hash ≠ .clrErr := by decide

theorem witness_CommandFrame :
    (∃ t, isCommand .setSalt = true ∧ exec .setSalt configured = .next t ∧ Instr.setSalt ≠ .hash) ∧
    (∃ t, exec .hash State.reset = .next t ∧ State.reset.err = false ∧ t.err = true) :=
  ⟨⟨_, by decide, rfl, by decide⟩, _, rfl, by decide, by decide⟩

theorem witness_ErrorEntryIsExact :
    ∃ t, (commands State.reset 7).err = false ∧ step (commands State.reset 7) = .next t ∧ t.err = true :=
  ⟨_, by decide, rfl, by decide⟩

theorem witness_IdleChangesNothing : nextTurn State.reset = .engine ∧ State.reset.seq = 0x000#11 := by decide

theorem witness_CheckSelectsTheBlock :
    ({ called with len := 129 } : State).offset.toNat + 128 < ({ called with len := 129 } : State).len.toNat ∧
    ({ called with len := 128 } : State).len.toNat ≤ ({ called with len := 128 } : State).offset.toNat + 128 := by decide

theorem witness_LoadFillsTheBlockBuffer : called.overwritten = [] := by decide

/-- The two memories differ at address 3, which is LEN. -/
theorem witness_LoadReadsOnlyItsBlock :
    called.overwritten = [] ∧
    (∀ a : Nat, 128 * called.blk.toNat ≤ a → a < min (128 * called.blk.toNat + 128) called.len.toNat →
      Memory.read (abc ++ [(3, 0xFF)]) a = called.mem.read a) ∧
    (∃ t, exec .load called = .next t) ∧ (∃ u, exec .load { called with mem := abc ++ [(3, 0xFF)] } = .next u) := by
  refine ⟨rfl, ?_, ⟨_, rfl⟩, ⟨_, rfl⟩⟩
  intro a _ h
  have h : a < 3 := h
  interval_cases a <;> rfl

theorem witness_MessageWordCases : 8 * 0 + 8 ≤ 8 ∧ (8 * 1 < 9 ∧ 9 < 8 * 1 + 8) ∧ 8 ≤ 8 * 1 := by decide

theorem witness_MixAppliesG : (0#4).toNat < 12 ∧ (11#4).toNat < 12 := by decide

theorem witness_FoldReplacesTheChainingValue : raced.final = true ∧ called.final = false := by decide

theorem witness_NextAdvancesTheBlock :
    called.blk.toNat + 1 < 2 ^ 57 ∧ called.offset.toNat + 128 < 2 ^ 64 := by decide

theorem witness_OutDeliversTheDigest : called.overwritten = [] := by decide
theorem witness_RacedCallDeliversHashOfAMixture : raced.overwritten ≠ [] := by decide

theorem witness_ReportedDigestIsAPrefix :
    ∃ t, ConfigLegal called ∧ called.cfg = true ∧ exec .out called = .next t ∧ 0 < called.dlen.toNat :=
  ⟨_, by decide, by decide, rfl, by decide⟩

/-- R160's steps on V3.11: the intermediate values the spec prints, and rotations at both ends of the range. -/
theorem witness_GqIsEightInvertibleSteps :
    (0 < 1 ∧ 1 < 64 ∧ 63 < 64) ∧
    (0x1111111111111110 : Word) = 0x0123456789ABCDEF + 0xFEDCBA9876543210 + 0x1111111111111111 ∧
    (0xD2C3F0E09687B4A5 : Word) = rotr64 (0x8796A5B4C3D2E1F0 ^^^ 0x1111111111111110) 32 ∧
    (0xE1E21E1CE1E21E1D : Word) = 0x0F1E2D3C4B5A6978 + 0xD2C3F0E09687B4A5 ∧
    (0xB62C0D1F3EA48497 : Word) = rotr64 (0xFEDCBA9876543210 ^^^ 0xE1E21E1CE1E21E1D) 24 ∧
    (0xE95F405271D7B7C9 : Word) = 0x1111111111111110 + 0xB62C0D1F3EA48497 + 0x2222222222222222 ∧
    (0x036C3B9CB0B2E750 : Word) = rotr64 (0xD2C3F0E09687B4A5 ^^^ 0xE95F405271D7B7C9) 16 ∧
    (0xE54E59B99295056D : Word) = 0xE1E21E1CE1E21E1D + 0x036C3B9CB0B2E750 ∧
    (0xA6C4A94D586303F4 : Word) = rotr64 (0xB62C0D1F3EA48497 ^^^ 0xE54E59B99295056D) 63 := by decide

theorem witness_ApplicationsOfOneGroupCommute :
    ((0 : Fin 8).val < 4 ↔ (3 : Fin 8).val < 4) ∧ ((4 : Fin 8).val < 4 ↔ (7 : Fin 8).val < 4) := by decide

theorem witness_InitialChainingValueIsInjective :
    h0 (pbView called) = h0 (pbView { called with msgLen := 9 }) := rfl

theorem witness_LoopBoundSuffices : 129 / 128 ≤ 5 := by decide

/-- A running call is a sound state: the hypothesis of StepKeepsSound and SoundStatesNeverStop away from reset. -/
theorem called_sound : Sound called :=
  ⟨by decide, by decide, by decide, by decide, by decide, by decide, by decide, by decide⟩

theorem witness_StepKeepsSound : ∃ t, Sound called ∧ step called = .next t := ⟨_, called_sound, rfl⟩

theorem witness_SoundStatesNeverStop :
    Sound called ∧ ∀ reg v, nextTurn called = .write reg v → v.toNat < 2 ^ regWidth reg :=
  ⟨called_sound, fun _ _ h => by cases h⟩

theorem witness_HashCallComputesHashf : HashAccepted called := by decide

/-- The second call runs on another memory (different beyond LEN), another H and another counter. -/
theorem witness_EqualCallsGiveEqualDigests :
    HashAccepted called ∧ HashAccepted { called with mem := abc ++ [(3, 0xFF)], h := traceH, t0 := 5 } ∧
    ∀ a : Nat, a < called.len.toNat → called.mem.read a = Memory.read (abc ++ [(3, 0xFF)]) a := by
  refine ⟨by decide, by decide, ?_⟩
  intro a h
  have h : a < 3 := h
  interval_cases a <;> rfl

theorem witness_ConfigurationFrozenWhileBusy :
    ∃ t, called.busy = true ∧ nextTurn (turn called (.write 8 99)) ≠ .reset ∧
      step (turn called (.write 8 99)) = .next t := ⟨_, by decide, by decide, rfl⟩

theorem witness_HostTurnsDoNotDisturbTheCall :
    (∃ t, called.busy = true ∧ Memory.wf called.mem ∧ step (turn called (.write 0 6)) = .next t) ∧
    (∃ t, nextTurn (turn called (.store 3 9)) ≠ .engine ∧ nextTurn (turn called (.store 3 9)) ≠ .reset ∧
      called.len.toNat ≤ (3#64).toNat ∧ step (turn called (.store 3 9)) = .next t) :=
  ⟨⟨_, by decide, by decide, rfl⟩, _, by decide, by decide, by decide, rfl⟩

theorem witness_OnlyOutWritesTheResult :
    ∃ t, step called = .next t ∧ nextTurn called ≠ .reset ∧
      ¬ (nextTurn called = .engine ∧ called.seq = seqWord .out 0 0) := ⟨_, rfl, by decide, by decide⟩

theorem witness_FirstErrorIsKept :
    ∃ t, errored.err = true ∧ step (commands errored 7) = .next t ∧ nextTurn (commands errored 7) ≠ .reset ∧
      ¬ ClearsError (commands errored 7) := ⟨_, by decide, rfl, by decide, by decide⟩

theorem witness_SequencerFollowsTheTable :
    (∃ t, nextTurn called = .engine ∧ step called = .next t ∧ called.seq = 0x080#11) ∧
    (∃ t, step { called with seq := 0x2DE#11 } = .next t ∧
      ({ called with seq := 0x2DE#11 } : State).seq = BitVec.ofNat 11 (0x280 + 94)) ∧
    (∃ t, step { called with seq := 0x300#11 } = .next t ∧ called.final = false) ∧
    (∃ t, step { raced with seq := 0x300#11 } = .next t ∧ raced.final = true) ∧
    (∃ t, nextTurn (commands configured 5) ≠ .engine ∧ nextTurn (commands configured 5) ≠ .reset ∧
      step (commands configured 5) = .next t ∧ t.seq ≠ (commands configured 5).seq) :=
  ⟨⟨_, rfl, rfl, rfl⟩, ⟨_, rfl, by decide⟩, ⟨_, rfl, rfl⟩, ⟨_, rfl, rfl⟩, _, by decide, by decide, rfl, by decide⟩

/-- A call of equal LEN with another history: another message, configuration, H, OFFSET and FINAL. -/
def calledLater : State := { called with mem := [], h := traceH, dlen := 1, offset := 256, final := true }

theorem witness_SequencingIsDataIndependent :
    (∃ t, HashAccepted called ∧ HashAccepted calledLater ∧ called.len = calledLater.len ∧
      called.offset ≠ calledLater.offset ∧ called.final ≠ calledLater.final ∧ stepN 2 called = .next t) ∧
    (∃ t, called.agenda = [] ∧ calledLater.agenda = [] ∧ SamePlace called calledLater ∧ step called = .next t) ∧
    SamePlace { called with seq := 0x100#11 } { calledLater with seq := 0x100#11, offset := 0 } ∧
    SamePlace { called with seq := 0x300#11, final := true } { calledLater with seq := 0x300#11, offset := 0 } :=
  ⟨⟨_, by decide, by decide, by decide, by decide, by decide, rfl⟩, ⟨_, rfl, rfl, by decide, rfl⟩, by decide, by decide⟩

theorem witness_EngineNeverWritesMemory : ∃ t, exec .load called = .next t := ⟨_, rfl⟩

end Sys2Proof.Tests
end

/-! PROOFS of the state family (10_state.md): the shared rules of the decoder, of the commands and of the sequencer steps,
then the obligations. -/

namespace Sys2Proof.Proofs.StateRules

open Sys2Proof.Machine Sys2Proof.Laws

/-! ## What the decoders give -/

/-- R97: SEQ of a MIX step is rebuilt from its round and its application index. -/
theorem seqWord_mix_of_mask (w : BitVec 11) (h : w &&& 0x780#11 = 0x280#11) :
    seqWord .mix (w.extractLsb' 3 4) (w.extractLsb' 0 3) = w := by
  apply BitVec.eq_of_getLsbD_eq
  intro k hk
  have hbit := congrArg (fun x => x.getLsbD k) h
  simp only [seqWord, phaseCode, BitVec.getLsbD_append, BitVec.getLsbD_extractLsb', BitVec.getLsbD_and] at hbit ⊢
  interval_cases k <;> simp_all

/-- R97: a sequencer word that decodes is the word of what it decodes to. -/
theorem encode_of_decodeSeq {w : BitVec 11} {i : Instr} (h : decodeSeq w = .ok i) : encode i = .sequencer w := by
  unfold decodeSeq at h
  split_ifs at h <;> cases h
  case pos hmask _ => exact congrArg Encoded.sequencer (seqWord_mix_of_mask w hmask)
  all_goals (subst_vars; rfl)

/-- R94: a command word decodes to a command only. -/
theorem isCommand_of_decodeCommand {w : BitVec 32} {i : Instr} (h : decodeCommand w = .ok i) : isCommand i = true := by
  unfold decodeCommand at h
  split_ifs at h <;> cases h <;> rfl

/-- R97: a sequencer word decodes to a sequencer step only. -/
theorem not_isCommand_of_decodeSeq {w : BitVec 11} {i : Instr} (h : decodeSeq w = .ok i) : isCommand i = false := by
  have he := encode_of_decodeSeq h
  cases i with
  | init | setDlen | setSalt | setPers | hash | clrErr => cases he
  | idle | start | check | load | vinit | mix | fold | next | out => rfl

/-! ## What the sequencer steps touch -/

/-- The two states differ in the registers of a running hash call at most (R21 to R25, R27, R28), LEN excepted. -/
def SameOutsideCall (s t : State) : Prop :=
  t = { s with
    h := t.h, v := t.v, m := t.m, t0 := t.t0, t1 := t.t1, f0 := t.f0, f1 := t.f1, final := t.final, seq := t.seq
    offset := t.offset, blk := t.blk }

/-- A MIX step that gives a next state has a round index of the table (R99, R163). -/
theorem exec_mix_next {r : BitVec 4} {i : BitVec 3} {s t : State} (h : exec (.mix r i) s = .next t) :
    ∃ hr : r.toNat < 12, t = { s with v := gStep s.m ⟨r.toNat, hr⟩ i.toFin s.v, seq := mixSuccessor r i } := by
  by_cases hr : r.toNat < 12
  · rw [exec_mix r i s hr] at h
    cases h
    exact ⟨hr, rfl⟩
  · simp [exec, execMix, hr] at h

/-- Every sequencer step but OUT keeps to the registers of the call. -/
theorem sequencerStep_frame {i : Instr} {s t : State} (hi : isCommand i = false) (hout : i ≠ .out)
    (h : exec i s = .next t) : SameOutsideCall s t := by
  cases i with
  | init | setDlen | setSalt | setPers | hash | clrErr => cases hi
  | out => exact absurd rfl hout
  | mix r j =>
    obtain ⟨hr, rfl⟩ := exec_mix_next h
    rfl
  | check =>
    cases h
    cases hm : moreBlocks s <;> rfl
  | idle | start | load | vinit | fold | next => cases h; rfl

/-! ## What the commands and the register writes can do -/

/-- R96 (case 1): with BUSY = 1 the gate discards the command word and sets OVR. -/
theorem commandGate_busy (w : BitVec 32) (n : Bool) (f : State → State) {s : State} (hb : s.busy = true) :
    commandGate w n f s = discardBusy s :=
  if_pos hb

/-- R250: a command presented while BUSY = 1 is discarded and sets OVR. -/
theorem exec_command_busy {i : Instr} {s : State} (hi : isCommand i = true) (hb : s.busy = true) :
    exec i s = .next (discardBusy s) := by
  cases i with
  | init | setDlen | setSalt | setPers | hash => exact congrArg Host.Outcome.next (commandGate_busy _ _ _ hb)
  | clrErr => exact congrArg Host.Outcome.next (if_pos hb)
  | idle | start | check | load | vinit | mix | fold | next | out => cases hi

/-- With BUSY = 0 a HostWrite to a register other than CMD changes staging registers at most (R258, R92). -/
theorem writeRegister_frame (reg : Nat) (v : BitVec 64) {s : State} (hb : s.busy = false) :
    ∃ a b c d l, writeRegister reg v s =
      { s with saltIn0 := a, saltIn1 := b, persIn0 := c, persIn1 := d, msgLen := l } := by
  unfold writeRegister
  rw [if_neg (Bool.eq_false_iff.mp hb)]
  split_ifs <;> exact ⟨_, _, _, _, _, rfl⟩

/-- With BUSY = 1 a HostWrite to a register other than CMD is discarded (R250). -/
theorem writeRegister_busy (reg : Nat) (v : BitVec 64) {s : State} (hb : s.busy = true) :
    writeRegister reg v s = discardBusy s := by
  rw [writeRegister, if_pos hb]

/-- With BUSY = 1 a write to CMD of a word that is no command is discarded too (R250, R286). -/
theorem illegalCommand_busy (w : BitVec 32) {s : State} (hb : s.busy = true) :
    illegalCommand w s = discardBusy s :=
  commandGate_busy w false _ hb

/-! ## The invariant: host turns -/

theorem afterTurn_sound {s : State} (hs : Sound s) : Sound (afterTurn s) := { hs with }

theorem hostRead_sound (reg : Nat) {s : State} (hs : Sound s) : Sound (hostRead reg s) := { hs with }

theorem discardBusy_sound {s : State} (hs : Sound s) : Sound (discardBusy s) := { hs with }

theorem clearError_sound {s : State} (hs : Sound s) : Sound (clearError s) :=
  { hs with recorded := by simp [ErrorRecorded] }

/-- R281: the codes are 1 to 5. -/
theorem errorCode_range (e : CommandError) : 1 ≤ (errorCode e).toNat ∧ (errorCode e).toNat ≤ 5 := by
  cases e <;> decide

theorem raise_sound (e : CommandError) (w : BitVec 32) {s : State} (hs : Sound s) : Sound (raise e w s) :=
  { hs with recorded := ⟨fun h => by simp at h, fun _ => errorCode_range e⟩ }

theorem hostStore_sound (a : Nat) (b : Byte) {s : State} (hs : Sound s) : Sound (hostStore a b s) :=
  { hs with
    quiet := fun hb => by
      rw [hostStore_busy] at hb
      simp [hb, hs.quiet hb]
    memory := hostStore_keeps_wf a b s hs.memory }

/-- Settles O49: with CFG = 0, SEQ in IDLE and an empty memory every clause is about a known value. -/
theorem resetIsSound : Obligations.ResetIsSound where
  config := by decide
  produced := by decide
  running := by decide
  configured := by decide
  recorded := by decide
  progress := by decide
  quiet := by decide
  memory := memory_nil_wf

/-- R320: Reset goes to the reset state but for what lies outside the engine. -/
theorem resetAction_sound {s : State} (hs : Sound s) : Sound (resetAction s) :=
  { resetIsSound with
    config := fun h => by cases h
    memory := resetAction_keeps_wf s hs.memory }

theorem writeRegister_sound (reg : Nat) (v : BitVec 64) {s : State} (hs : Sound s) : Sound (writeRegister reg v s) := by
  cases hb : s.busy with
  | true =>
    rw [writeRegister_busy reg v hb]
    exact discardBusy_sound hs
  | false =>
    obtain ⟨a, b, c, d, l, h⟩ := writeRegister_frame reg v hb
    rw [h]
    exact { hs with }

/-! ## The invariant: commands -/

/-- R96: a command keeps the invariant when what it performs, with BUSY = 0 and its configuration present, does. -/
theorem commandGate_sound {w : BitVec 32} {n : Bool} {f : State → State} {s : State} (hs : Sound s)
    (hf : s.busy = false → (n = true → s.cfg = true) → Sound (f s)) : Sound (commandGate w n f s) := by
  obtain ⟨-, h⟩ | ⟨-, -, h⟩ | ⟨-, -, -, -, h⟩ | ⟨hb, -, hn, h⟩ := commandGate_cases w n f s <;> rw [h]
  · exact discardBusy_sound hs
  · exact hs
  · exact raise_sound _ _ hs
  · exact hf hb hn

theorem illegalCommand_sound (w : BitVec 32) {s : State} (hs : Sound s) : Sound (illegalCommand w s) :=
  commandGate_sound hs fun _ _ => raise_sound _ _ hs

/-- With BUSY = 0 a new configuration, if legal, keeps the invariant. -/
theorem setConfig_sound {s : State} (hs : Sound s) (hb : s.busy = false) {d k : BitVec 8} {c : Bool}
    {s0 s1 p0 p1 : Word}
    (hc : c = true → 1 ≤ d.toNat ∧ d.toNat ≤ 64 ∧ k.toNat ≤ 64 ∧ (s.keyPolicy = .reject → k = 0#8)) :
    Sound { s with dlen := d, klen := k, salt0 := s0, salt1 := s1, pers0 := p0, pers1 := p1, cfg := c } :=
  { hs with
    config := hc
    configured := fun h => absurd (hb.symm.trans h) Bool.false_ne_true }

/-- R251, R34, R35: INIT stores a legal configuration or raises an error. -/
theorem performInit_sound (d k : BitVec 8) {s : State} (hs : Sound s) (hb : s.busy = false) :
    Sound (performInit d k s) := by
  unfold performInit
  split_ifs with hd hk hr
  · exact raise_sound _ _ hs
  · exact raise_sound _ _ hs
  · exact raise_sound _ _ hs
  · simp only [Bool.not_eq_true, Bool.not_eq_false', digestLengthOk_iff, keyLengthOk_iff, keyRefused_iff] at hd hk hr
    obtain ⟨hd1, hd64⟩ := hd
    refine setConfig_sound hs hb fun _ => ⟨hd1, hd64, hk, fun hp => BitVec.eq_of_toNat_eq ?_⟩
    simpa [hp] using hr

theorem performSetDlen_sound (n : BitVec 8) {s : State} (hs : Sound s) (hb : s.busy = false) :
    Sound (performSetDlen n s) := by
  unfold performSetDlen
  split_ifs with hn
  · exact raise_sound _ _ hs
  · simp only [Bool.not_eq_true, Bool.not_eq_false', digestLengthOk_iff] at hn
    obtain ⟨hn1, hn64⟩ := hn
    refine setConfig_sound hs hb fun hc => ?_
    obtain ⟨-, -, hkey, hpolicy⟩ := hs.config hc
    exact ⟨hn1, hn64, hkey, hpolicy⟩

theorem performSetSalt_sound {s : State} (hs : Sound s) (hb : s.busy = false) : Sound (performSetSalt s) :=
  setConfig_sound hs hb hs.config

theorem performSetPers_sound {s : State} (hs : Sound s) (hb : s.busy = false) : Sound (performSetPers s) :=
  setConfig_sound hs hb hs.config

/-- PHASE of a state whose SEQ is known. -/
theorem phaseOf_of_seq {s : State} {p : Phase} {r : BitVec 4} {i : BitVec 3} (h : s.seq = seqWord p r i) :
    (phaseOf s).toNat = (phaseCode p).toNat := by
  rw [phaseOf, h, phaseOf_seqWord]

/-- In IDLE and START nothing is promised of counter and flags. -/
theorem callProgress_early {s : State} {p : Phase} {r : BitVec 4} {i : BitVec 3} (h : s.seq = seqWord p r i)
    (hp : (phaseCode p).toNat < 2) : CallProgress s := by
  rw [← phaseOf_of_seq h] at hp
  exact ⟨fun _ => by omega, fun _ => by omega, fun _ => by omega, fun _ => by omega, fun _ => by omega⟩

/-- R256: HASH, accepted in a configured engine, starts a call: in START nothing is promised of counter and flags. -/
theorem performHash_sound {s : State} (hs : Sound s) (hc : s.cfg = true) : Sound (performHash s) :=
  { hs with
    produced := seqProduced_seqWord .start
    running := iff_of_true rfl (by decide : seqWord .start 0 0 ≠ seqWord .idle 0 0)
    configured := fun _ => ⟨hc, rfl⟩
    progress := callProgress_early (performHash_seq s) (by decide)
    quiet := fun _ => rfl }

/-- R250 to R257: every command keeps the invariant. -/
theorem exec_command_sound {i : Instr} {s t : State} (hi : isCommand i = true) (hs : Sound s)
    (h : exec i s = .next t) : Sound t := by
  cases i with
  | init d k => cases h; exact commandGate_sound hs fun hb _ => performInit_sound d k hs hb
  | setDlen n => cases h; exact commandGate_sound hs fun hb _ => performSetDlen_sound n hs hb
  | setSalt => cases h; exact commandGate_sound hs fun hb _ => performSetSalt_sound hs hb
  | setPers => cases h; exact commandGate_sound hs fun hb _ => performSetPers_sound hs hb
  | hash => cases h; exact commandGate_sound hs fun _ hc => performHash_sound hs (hc rfl)
  | clrErr =>
    cases h
    cases s.busy
    · exact clearError_sound hs
    · exact discardBusy_sound hs
  | idle | start | check | load | vinit | mix | fold | next | out => cases hi

/-! ## The invariant: sequencer steps -/

/-- What holds of counter, flags and block index from CHECK's end to the end of the call, whatever SEQ shows. -/
structure BlockInFlight (s : State) : Prop where
  t1_zero : s.t1 = 0#64
  f1_zero : s.f1 = 0#64
  offset_eq : s.offset.toNat = 128 * s.blk.toNat
  offset_le : s.offset.toNat ≤ s.len.toNat
  selected : BlockSelected s

/-- From LOAD on the call has a block in flight. -/
theorem blockInFlight_of_progress {s : State} (hp : CallProgress s) {p : Phase} {r : BitVec 4} {i : BitVec 3}
    (h : s.seq = seqWord p r i) (h3 : 3 ≤ (phaseCode p).toNat) : BlockInFlight s := by
  rw [← phaseOf_of_seq h] at h3
  obtain ⟨hregs, -, hsel, -, -⟩ := hp
  obtain ⟨ht1, hf1, hoff, hle⟩ := hregs (by omega)
  exact ⟨ht1, hf1, hoff, hle, hsel h3⟩

/-- CHECK asks for the counter of the blocks done and an offset inside the message. -/
theorem callProgress_check {s : State} (h : s.seq = seqWord .check 0 0) :
    CallProgress s ↔ s.t1 = 0#64 ∧ s.f1 = 0#64 ∧ s.offset.toNat = 128 * s.blk.toNat ∧ s.offset.toNat ≤ s.len.toNat ∧
      s.t0 = s.offset ∧ s.f0 = 0#64 ∧ (s.offset = 0#64 ∨ s.offset.toNat < s.len.toNat) := by
  have hph : (phaseOf s).toNat = 2 := phaseOf_of_seq h
  simp [CallProgress, hph, and_assoc]

/-- What the engine's step in a running call has to reach for the call to go on. -/
structure InCall (s : State) : Prop where
  produced : seqProduced s.seq = true
  moving : s.seq ≠ seqWord .idle 0 0
  progress : CallProgress s

/-- A phase word other than IDLE's and MIX's is reached as soon as the registers fit it. -/
theorem inCall_of_word {s : State} (p : Phase) (h : s.seq = seqWord p 0 0) (hp : 0 < (phaseCode p).toNat)
    (hprog : CallProgress s) : InCall s where
  produced := h ▸ seqProduced_seqWord p
  moving := fun h0 => by
    exact hp.ne' ((phaseOf_of_seq h).symm.trans (phaseOf_of_seq h0))
  progress := hprog

/-- Phases 3 to 8 ask for a block in flight, NEXT besides for one that is not the last and OUT for the last. -/
theorem inCall_of_block {s : State} (w : BitVec 11) (hb : BlockInFlight s) (hseq : s.seq = w)
    (hprod : seqProduced w = true) (h3 : 3 ≤ (w.extractLsb' 7 4).toNat)
    (h7 : (w.extractLsb' 7 4).toNat = 7 → s.final = false) (h8 : (w.extractLsb' 7 4).toNat = 8 → s.final = true) :
    InCall s := by
  subst hseq
  refine ⟨hprod, fun h0 => ?_, fun _ => ⟨hb.t1_zero, hb.f1_zero, hb.offset_eq, hb.offset_le⟩, fun h2 => ?_,
    fun _ => hb.selected, h7, h8⟩
  · rw [h0] at h3
    exact absurd h3 (by decide)
  · rw [phaseOf] at h2
    omega

/-- LOAD, VINIT, MIX and FOLD ask for a block in flight and no more. -/
theorem inCall_within_block {s : State} (w : BitVec 11) (hb : BlockInFlight s) (hseq : s.seq = w)
    (hprod : seqProduced w = true) (h3 : 3 ≤ (w.extractLsb' 7 4).toNat) (h6 : (w.extractLsb' 7 4).toNat ≤ 6) :
    InCall s :=
  inCall_of_block w hb hseq hprod h3 (by omega) (by omega)

/-- R47 (b): SEQ at a word of another phase than IDLE means BUSY. -/
theorem busy_of_seq {s : State} (hs : Sound s) {p : Phase} {r : BitVec 4} {i : BitVec 3} (h : s.seq = seqWord p r i)
    (hp : 0 < (phaseCode p).toNat) : s.busy = true :=
  hs.running.mpr fun h0 => hp.ne' ((phaseOf_of_seq h).symm.trans (phaseOf_of_seq h0))

/-- A step that keeps to the registers of a running call and reaches a state of the call keeps the invariant. -/
theorem sound_of_inCall {s t : State} (hs : Sound s) {p : Phase} {r : BitVec 4} {i : BitVec 3}
    (h : s.seq = seqWord p r i) (hp : 0 < (phaseCode p).toNat) (hframe : SameOutsideCall s t) (ht : InCall t) :
    Sound t := by
  have hb := busy_of_seq hs h hp
  obtain ⟨⟩ := t
  cases hframe
  exact { hs with
    produced := ht.produced
    running := iff_of_true hb ht.moving
    progress := ht.progress }

/-- R213: after START the counter and the offset are 0. -/
theorem start_inCall {s t : State} (h : exec .start s = .next t) : InCall t := by
  cases h
  exact inCall_of_word .check rfl (by decide) ((callProgress_check rfl).mpr (by simp))

/-- R214, R215, R216: CHECK selects the block its loop test names; the counter of a full block does not wrap below LEN. -/
theorem check_inCall {s t : State} (hp : CallProgress s) (hseq : s.seq = seqWord .check 0 0)
    (h : exec .check s = .next t) : InCall t := by
  obtain ⟨ht1, hf1, hoff, hle, ht0, hf0, -⟩ := (callProgress_check hseq).mp hp
  cases h
  by_cases hm : s.offset.toNat + 128 < s.len.toNat
  · rw [if_pos ((moreBlocks_iff s).mpr hm)]
    have hsum : (s.t0 + 128#64).toNat = s.offset.toNat + 128 := by rw [ht0]; bv_omega
    exact inCall_within_block (seqWord .load 0 0) ⟨ht1, hf1, hoff, hle, hsum, hf0, hm⟩ rfl
      (seqProduced_seqWord .load) (by decide) (by decide)
  · rw [if_neg (mt (moreBlocks_iff s).mp hm)]
    exact inCall_within_block (seqWord .load 0 0) ⟨ht1, rfl, hoff, hle, rfl, rfl, Nat.le_of_not_lt hm⟩ rfl
      (seqProduced_seqWord .load) (by decide) (by decide)

/-- R144: LOAD goes on to VINIT with the same block. -/
theorem load_inCall {s t : State} (hb : BlockInFlight s) (h : exec .load s = .next t) : InCall t := by
  cases h
  exact inCall_within_block (seqWord .vinit 0 0) { hb with } rfl (seqProduced_seqWord .vinit) (by decide) (by decide)

/-- R191: VINIT goes on to MIX with the same block. -/
theorem vinit_inCall {s t : State} (hb : BlockInFlight s) (h : exec .vinit s = .next t) : InCall t := by
  cases h
  exact inCall_within_block (seqWord .mix 0 0) { hb with } rfl (seqProduced_seqWord .mix) (by decide) (by decide)

/-- R163: MIX goes on with the same block, in MIX or in FOLD. -/
theorem mix_inCall {r : BitVec 4} {i : BitVec 3} {s t : State} (hb : BlockInFlight s)
    (h : exec (.mix r i) s = .next t) : InCall t := by
  obtain ⟨h5, h6⟩ := mixSuccessor_phase r i
  obtain ⟨hr, rfl⟩ := exec_mix_next h
  exact inCall_within_block (mixSuccessor r i) { hb with } rfl (mixSuccessor_produced r i hr) (by omega) h6

/-- R193: where FOLD goes, by FINAL. -/
theorem foldSuccessor (final : Bool) : ∀ w, w = (if final then seqWord .out 0 0 else seqWord .next 0 0) →
    seqProduced w = true ∧ 3 ≤ (w.extractLsb' 7 4).toNat ∧ ((w.extractLsb' 7 4).toNat = 7 → final = false) ∧
      ((w.extractLsb' 7 4).toNat = 8 → final = true) := by
  rintro w rfl
  revert final
  decide

/-- R193: FOLD goes to OUT after the last block and to NEXT after another one. -/
theorem fold_inCall {s t : State} (hb : BlockInFlight s) (h : exec .fold s = .next t) : InCall t := by
  obtain ⟨hprod, h3, h7, h8⟩ := foldSuccessor s.final _ rfl
  cases h
  exact inCall_of_block _ { hb with } rfl hprod h3 h7 h8

/-- NEXT comes after a block that is not the last. -/
theorem final_of_next {s : State} (hp : CallProgress s) (h : s.seq = seqWord .next 0 0) : s.final = false := by
  obtain ⟨-, -, -, h7, -⟩ := hp
  exact h7 (phaseOf_of_seq h)

/-- R217: NEXT comes after a block that ends below LEN, so neither sum wraps. -/
theorem next_inCall {s t : State} (hb : BlockInFlight s) (hfinal : s.final = false) (h : exec .next s = .next t) :
    InCall t := by
  obtain ⟨ht1, hf1, hoff, hle, hsel⟩ := hb
  rw [BlockSelected, hfinal] at hsel
  obtain ⟨ht0, hf0, hlt⟩ := hsel
  have hsum : (s.offset + 128#64).toNat = s.offset.toNat + 128 := by bv_omega
  have hblk : (s.blk + 1#57).toNat = s.blk.toNat + 1 := by bv_omega
  have hoff' : (s.offset + 128#64).toNat = 128 * (s.blk + 1#57).toNat := by omega
  have hlt' : (s.offset + 128#64).toNat < s.len.toNat := by omega
  have ht0' : s.t0 = s.offset + 128#64 := BitVec.eq_of_toNat_eq (ht0.trans hsum.symm)
  cases h
  exact inCall_of_word .check rfl (by decide)
    ((callProgress_check rfl).mpr ⟨ht1, hf1, hoff', hlt'.le, ht0', hf0, .inr hlt'⟩)

/-- R218: OUT ends the call and leaves an idle engine with no race record. -/
theorem out_sound {s t : State} (hs : Sound s) (h : exec .out s = .next t) : Sound t := by
  cases h
  exact { hs with
    produced := seqProduced_seqWord .idle
    running := iff_of_false Bool.false_ne_true (fun h => h rfl)
    configured := fun h => by cases h
    progress := callProgress_early rfl (by decide)
    quiet := fun _ => rfl }

/-- R211: every sequencer step, taken at its own word, keeps the invariant. -/
theorem exec_sequencer_sound {i : Instr} {s t : State} (hs : Sound s) (hi : encode i = .sequencer s.seq)
    (h : exec i s = .next t) : Sound t := by
  have hseq : ∀ {w}, encode i = .sequencer w → s.seq = w := fun hw => Encoded.sequencer.inj (hi.symm.trans hw)
  have goesOn : ∀ {p r j}, encode i = .sequencer (seqWord p r j) → 0 < (phaseCode p).toNat → isCommand i = false →
      i ≠ .out → InCall t → Sound t := fun hw hp hcmd hout ht =>
    sound_of_inCall hs (hseq hw) hp (sequencerStep_frame hcmd hout h) ht
  have hblock : ∀ {p r j}, encode i = .sequencer (seqWord p r j) → 3 ≤ (phaseCode p).toNat → BlockInFlight s :=
    fun hw hp => blockInFlight_of_progress hs.progress (hseq hw) hp
  cases i with
  | init | setDlen | setSalt | setPers | hash | clrErr => cases hi
  | idle => cases h; exact hs
  | start => exact goesOn rfl (by decide) rfl nofun (start_inCall h)
  | check => exact goesOn rfl (by decide) rfl nofun (check_inCall hs.progress (hseq rfl) h)
  | load => exact goesOn rfl (by decide) rfl nofun (load_inCall (hblock rfl (by decide)) h)
  | vinit => exact goesOn rfl (by decide) rfl nofun (vinit_inCall (hblock rfl (by decide)) h)
  | mix r j => exact goesOn rfl (by decide) rfl nofun (mix_inCall (hblock rfl (by decide)) h)
  | fold => exact goesOn rfl (by decide) rfl nofun (fold_inCall (hblock rfl (by decide)) h)
  | next =>
    exact goesOn rfl (by decide) rfl nofun
      (next_inCall (hblock rfl (by decide)) (final_of_next hs.progress (hseq rfl)) h)
  | out => exact out_sound hs h

/-- Settles O50, by what a step can be: each kind of turn keeps the invariant. -/
theorem stepKeepsSound : Obligations.StepKeepsSound := by
  intro s t hs h
  have hs' : Sound (afterTurn s) := afterTurn_sound hs
  obtain ⟨i, -, hd, hx⟩ | ⟨w, i, -, hd, hx⟩ | ⟨w, e, -, -, rfl⟩ | ⟨reg, v, -, -, -, rfl⟩ | ⟨reg, -, rfl⟩ |
    ⟨a, b, -, rfl⟩ | ⟨-, rfl⟩ := step_cases h
  · exact exec_sequencer_sound hs' (encode_of_decodeSeq hd) hx
  · exact exec_command_sound (isCommand_of_decodeCommand hd) hs' hx
  · exact illegalCommand_sound w hs'
  · exact writeRegister_sound reg v hs'
  · exact hostRead_sound reg hs'
  · exact hostStore_sound a.toNat b hs'
  · exact resetAction_sound hs'

/-! ## The configuration and the result -/

/-- Settles O54: while BUSY = 1 every host write is discarded, and a sequencer step keeps to the registers of the call or is
OUT. -/
theorem configurationFrozenWhileBusy : Obligations.ConfigurationFrozenWhileBusy := by
  intro s t hb hreset h
  have hb' : (afterTurn s).busy = true := hb
  have hdiscard : SameConfiguration (discardBusy (afterTurn s)) s ∧ (discardBusy (afterTurn s)).len = s.len := by
    simp [SameConfiguration]
  obtain ⟨i, -, hd, hx⟩ | ⟨w, i, -, hd, hx⟩ | ⟨w, e, -, -, rfl⟩ | ⟨reg, v, -, -, -, rfl⟩ | ⟨reg, -, rfl⟩ |
    ⟨a, b, -, rfl⟩ | ⟨hr, -⟩ := step_cases h
  · by_cases hout : i = .out
    · subst hout
      cases hx
      simp [SameConfiguration]
    · rw [sequencerStep_frame (not_isCommand_of_decodeSeq hd) hout hx]
      simp [SameConfiguration]
  · rw [exec_command_busy (isCommand_of_decodeCommand hd) hb'] at hx
    cases hx
    exact hdiscard
  · rwa [illegalCommand_busy w hb']
  · rwa [writeRegister_busy reg v hb']
  · simp [SameConfiguration]
  · simp [SameConfiguration]
  · exact absurd hr hreset

/-- DIGEST and OUT_LEN of two states are equal (R43). -/
abbrev SameResult (s t : State) : Prop := t.digest = s.digest ∧ t.outLen = s.outLen

theorem commandGate_result {w : BitVec 32} {n : Bool} {f : State → State} {s : State} (hf : SameResult s (f s)) :
    SameResult s (commandGate w n f s) := by
  obtain ⟨-, h⟩ | ⟨-, -, h⟩ | ⟨-, -, -, -, h⟩ | ⟨-, -, -, h⟩ := commandGate_cases w n f s <;> rw [h]
  · exact ⟨rfl, rfl⟩
  · exact ⟨rfl, rfl⟩
  · exact ⟨rfl, rfl⟩
  · exact hf

theorem performInit_result (d k : BitVec 8) (s : State) : SameResult s (performInit d k s) := by
  unfold performInit
  split_ifs <;> exact ⟨rfl, rfl⟩

theorem performSetDlen_result (n : BitVec 8) (s : State) : SameResult s (performSetDlen n s) := by
  unfold performSetDlen
  split_ifs <;> exact ⟨rfl, rfl⟩

/-- R259: no command writes DIGEST or OUT_LEN. -/
theorem exec_command_result {i : Instr} {s t : State} (hi : isCommand i = true) (h : exec i s = .next t) :
    SameResult s t := by
  cases i with
  | init d k => cases h; exact commandGate_result (performInit_result d k s)
  | setDlen n => cases h; exact commandGate_result (performSetDlen_result n s)
  | setSalt | setPers | hash => cases h; exact commandGate_result ⟨rfl, rfl⟩
  | clrErr => cases h; cases s.busy <;> exact ⟨rfl, rfl⟩
  | idle | start | check | load | vinit | mix | fold | next | out => cases hi

theorem writeRegister_result (reg : Nat) (v : BitVec 64) (s : State) : SameResult s (writeRegister reg v s) := by
  cases hb : s.busy with
  | true => rw [writeRegister_busy reg v hb]; exact ⟨rfl, rfl⟩
  | false =>
    obtain ⟨a, b, c, d, l, h⟩ := writeRegister_frame reg v hb
    rw [h]
    exact ⟨rfl, rfl⟩

/-- Settles O56: commands and register writes leave the result alone, and so does every sequencer step but OUT, which SEQ
shows only at OUT's word. -/
theorem onlyOutWritesTheResult : Obligations.OnlyOutWritesTheResult := by
  intro s t h hreset hnotOut
  obtain ⟨i, hturn, hd, hx⟩ | ⟨w, i, -, hd, hx⟩ | ⟨w, e, -, -, rfl⟩ | ⟨reg, v, -, -, -, rfl⟩ | ⟨reg, -, rfl⟩ |
    ⟨a, b, -, rfl⟩ | ⟨hr, -⟩ := step_cases h
  · have hout : i ≠ .out := by
      rintro rfl
      exact hnotOut ⟨hturn, (Encoded.sequencer.inj (encode_of_decodeSeq hd)).symm⟩
    rw [sequencerStep_frame (not_isCommand_of_decodeSeq hd) hout hx]
    exact ⟨rfl, rfl⟩
  · exact exec_command_result (s := afterTurn s) (isCommand_of_decodeCommand hd) hx
  · exact commandGate_result (s := afterTurn s) ⟨rfl, rfl⟩
  · exact writeRegister_result reg v (afterTurn s)
  · exact ⟨rfl, rfl⟩
  · exact ⟨rfl, rfl⟩
  · exact absurd hr hreset

/-! ## The parameter block and the register map -/

/-- R31, R32: P[0] is DLEN, KLEN, fanout 1, depth 1 and four zero bytes, low byte first. -/
theorem pword_first (s : State) : pword (pbView s) 0 = 0x000000000101#48 ++ s.klen ++ s.dlen := by
  simp [pword, le64, pbView, pblk]

/-- Settles O15: P[0] byte by byte, the other words from the laws of the parameter block. -/
theorem parameterBlockWords : Obligations.ParameterBlockWords := by
  intro s
  refine ⟨?_, pword_zero s 1 (by decide), pword_zero s 2 (by decide), pword_zero s 3 (by decide), pword_salt0 s,
    pword_salt1 s, pword_pers0 s, pword_pers1 s⟩
  rw [pword_first, append_toNat, append_toNat, BitVec.toNat_ofNat]
  omega

/-- R39: STATUS bit by bit. -/
theorem statusWord_getLsbD (s : State) (b : Nat) : (statusWord s).getLsbD b =
      if b = 0 then s.busy else if b = 1 then s.done else if b = 2 then s.cfg else if b = 3 then s.err
      else if b = 4 then s.ovr else if b < 8 then false else if b < 16 then s.errcode.getLsbD (b - 8)
      else if b < 27 then s.seq.getLsbD (b - 16) else false := by
  simp only [statusWord, bit, BitVec.getLsbD_append, BitVec.getLsbD_zero]
  by_cases h27 : b < 27
  · interval_cases b <;> simp
  · simp (disch := omega) only [if_neg]

/-- R39: PB0 to PB7. -/
theorem readRegister_parameterBlock (s : State) (k : Fin 8) : readRegister s (16 + k.val) = pword (pbView s) k.val := by
  unfold readRegister
  simp (disch := omega) only [if_neg, if_pos, Nat.add_sub_cancel_left]

/-- R39: DIGEST0 to DIGEST7. -/
theorem readRegister_digest (s : State) (k : Fin 8) : readRegister s (24 + k.val) = digestWord s.digest k.val := by
  unfold readRegister
  simp (disch := omega) only [if_neg, if_pos, Nat.add_sub_cancel_left]

/-- R39, R12: byte `j` of a digest word. -/
theorem byteOf_digestWord (digest : Vector Byte 64) (k j : Fin 8) :
    byteOf (digestWord digest k.val) j.val = digest[8 * k.val + j.val] := by
  rw [digestWord, byteOf_le64 _ _ j.isLt, digestByte, dif_pos (by omega)]

/-- R39: the reserved register numbers read 0. -/
theorem readRegister_reserved (s : State) (reg : Nat) (h : 9 ≤ reg ∧ reg ≤ 15 ∨ 32 ≤ reg) :
    readRegister s reg = 0#64 := by
  unfold readRegister
  simp (disch := omega) only [if_neg, BitVec.ofNat_eq_ofNat]

/-- R39: bit `b` of register 1 is bit `b` of STATUS, whose 32 bits are widened with zeros. -/
theorem readRegister_status_getLsbD (s : State) (b : Nat) :
    (readRegister s 1).getLsbD b = (statusWord s).getLsbD b := by
  change ((statusWord s).setWidth 64).getLsbD b = _
  rw [BitVec.getLsbD_setWidth, Bool.and_eq_right_iff_imp, decide_eq_true_iff]
  intro h
  have := BitVec.lt_of_getLsbD h
  omega

/-- Settles O14: one lemma for each kind of register; the registers held as one word read as they are. -/
theorem registerMapReads : Obligations.RegisterMapReads := by
  intro s
  refine ⟨rfl, fun b => ?_, rfl, rfl, rfl, rfl, rfl, rfl, rfl, readRegister_parameterBlock s, fun k j => ?_,
    readRegister_reserved s⟩
  · rw [readRegister_status_getLsbD, statusWord_getLsbD]
  · rw [readRegister_digest, byteOf_digestWord]

end Sys2Proof.Proofs.StateRules

/-! PROOFS of the memory family (20_memory.md): the host's store as a step, the byte the engine uses, what a block reads, and
that no instruction writes memory; then the obligations. -/

namespace Sys2Proof.Proofs.MemoryRules

open Sys2Proof.Machine Sys2Proof.Laws Sys2Proof.Proofs.StateRules

/-! ## The host's store -/

/-- R60: a store turn is the host's store in the state with that turn off the agenda. -/
theorem step_of_store {s : State} {addr : BitVec 64} {b : Byte} (h : nextTurn s = .store addr b) :
    step s = .next (hostStore addr.toNat b (afterTurn s)) :=
  step_of_ends (by rw [h]; rfl)

/-- R70: the host's store touches no register of the engine. -/
theorem hostStore_sameEngine (a : Nat) (b : Byte) (s : State) : SameEngine (hostStore a b s) s := by
  simp [SameEngine]

/-- With BUSY = 0 the host's store races with no call. -/
theorem hostStore_overwritten_idle (a : Nat) (b : Byte) {s : State} (hb : s.busy = false) :
    (hostStore a b s).overwritten = s.overwritten := by
  simp [hostStore, hb]

/-- R70 (e): a store below LEN with BUSY = 1 keeps the byte it overwrites. -/
theorem hostStore_overwritten_race {a : Nat} (b : Byte) {s : State} (hb : s.busy = true) (ha : a < s.len.toNat) :
    (hostStore a b s).overwritten = (a, s.mem.read a) :: s.overwritten := by
  simp [hostStore, hb, ha]

/-- Settles O16: the engine's frame, the canonical form and the read after the write are one rule each. -/
theorem hostStoreWritesOneByte : Obligations.HostStoreWritesOneByte := by
  intro s addr b hwf hturn
  exact ⟨_, step_of_store hturn, hostStore_sameEngine addr.toNat b (afterTurn s),
    hostStore_keeps_wf addr.toNat b (afterTurn s) hwf, fun a => memory_read_write s.mem addr.toNat b a hwf,
    fun hb => hostStore_overwritten_idle addr.toNat b (s := afterTurn s) hb⟩

/-! ## The byte the engine uses -/

/-- R70 (e), R332: whatever the free value is, the engine uses the stored byte or an older one. -/
theorem engineByte_mem (s : State) (a : Nat) : engineByte s a ∈ s.mem.read a :: olderBytes s a := by
  unfold engineByte
  cases olderBytes s a with
  | nil => exact List.mem_singleton_self _
  | cons b older =>
    have hlt : Config.raceChoice s.calls a % ((b :: older).length + 1) < (s.mem.read a :: b :: older).length :=
      Nat.mod_lt _ (Nat.succ_pos _)
    dsimp only
    rw [List.getD_eq_getElem _ _ hlt]
    exact List.getElem_mem hlt

/-- Settles O17: an older byte of the address is one the host overwrote, and a racing store records it. -/
theorem racedByteIsOldOrNew : Obligations.RacedByteIsOldOrNew := by
  refine ⟨fun s a => ?_, fun s addr b hb hlen hturn => ?_⟩
  · exact (List.mem_cons.mp (engineByte_mem s a)).imp_right olderBytes_overwritten
  · exact ⟨_, step_of_store hturn, hostStore_overwritten_race b (s := afterTurn s) hb hlen⟩

/-! ## What a block reads -/

/-- R64, R143: block `b` depends on the message bytes of that block below LEN only. -/
theorem block_congr_within (msg msg' : Nat → Byte) (len b : Nat)
    (h : ∀ a, 128 * b ≤ a → a < min (128 * b + 128) len → msg a = msg' a) : block msg len b = block msg' len b := by
  unfold block
  congr 1
  funext j
  refine le64_congr _ _ fun n hn => ?_
  unfold msgByte
  split_ifs with hlen
  · exact h _ (by omega) (by omega)
  · rfl

/-- Settles O35: with no racing store the engine's bytes are those of the memory, and a block reads its own below LEN. -/
theorem loadReadsOnlyItsBlock : Obligations.LoadReadsOnlyItsBlock := by
  intro s t u mem hquiet heq ht hu
  cases ht
  cases hu
  refine block_congr_within _ _ _ _ fun a hlo hhi => ?_
  rw [engineByte_quiet s a hquiet, engineByte_quiet { s with mem := mem } a hquiet]
  exact heq a hlo hhi

/-! ## No instruction writes memory -/

/-- R96: a command leaves memory alone when what it performs does. -/
theorem commandGate_mem {w : BitVec 32} {n : Bool} {f : State → State} {s : State} (hf : (f s).mem = s.mem) :
    (commandGate w n f s).mem = s.mem := by
  obtain ⟨-, h⟩ | ⟨-, -, h⟩ | ⟨-, -, -, -, h⟩ | ⟨-, -, -, h⟩ := commandGate_cases w n f s <;> rw [h]
  · exact discardBusy_mem s
  · exact raise_mem _ _ s
  · exact hf

theorem performInit_mem (d k : BitVec 8) (s : State) : (performInit d k s).mem = s.mem := by
  unfold performInit
  split_ifs <;> rfl

theorem performSetDlen_mem (n : BitVec 8) (s : State) : (performSetDlen n s).mem = s.mem := by
  unfold performSetDlen
  split_ifs <;> rfl

/-- R259: no command writes memory. -/
theorem exec_command_mem {i : Instr} {s t : State} (hi : isCommand i = true) (h : exec i s = .next t) :
    t.mem = s.mem := by
  cases i with
  | init d k => cases h; exact commandGate_mem (performInit_mem d k s)
  | setDlen n => cases h; exact commandGate_mem (performSetDlen_mem n s)
  | setSalt | setPers | hash => cases h; exact commandGate_mem rfl
  | clrErr => cases h; cases s.busy <;> rfl
  | idle | start | check | load | vinit | mix | fold | next | out => cases hi

/-- R66: no sequencer step writes memory; OUT alone writes beyond the registers of the call, and only the result. -/
theorem exec_sequencer_mem {i : Instr} {s t : State} (hi : isCommand i = false) (h : exec i s = .next t) :
    t.mem = s.mem := by
  by_cases hout : i = .out
  · subst hout
    cases h
    rfl
  · rw [sequencerStep_frame hi hout h]

/-- Settles O60: neither a command nor a sequencer step writes memory. -/
theorem engineNeverWritesMemory : Obligations.EngineNeverWritesMemory := by
  intro i s t h a
  have hmem : t.mem = s.mem := by
    cases hi : isCommand i with
    | true => exact exec_command_mem hi h
    | false => exact exec_sequencer_mem hi h
  rw [hmem]

end Sys2Proof.Proofs.MemoryRules

/-! PROOFS of the encoding family (30_encoding.md): the fields of a word and the rows of the opcode maps, decode after
encode and encode after decode, which words decode, what a turn comes to in a step; the obligations among them. -/

namespace Sys2Proof.Proofs.EncodingRules

open Sys2Proof.Machine Sys2Proof.Laws Sys2Proof.Proofs.StateRules

/-! ## Words and their fields -/

/-- Two words of the same two fields agree when both fields do. -/
theorem append_inj {m n : Nat} {a a' : BitVec m} {b b' : BitVec n} : a ++ b = a' ++ b' ↔ a = a' ∧ b = b' := by
  refine ⟨fun h => ⟨?_, ?_⟩, fun ⟨ha, hb⟩ => ha ▸ hb ▸ rfl⟩
  · simpa only [BitVec.extractLsb'_append_eq_left] using congrArg (BitVec.extractLsb' n m) h
  · simpa only [BitVec.extractLsb'_append_eq_right] using congrArg (BitVec.extractLsb' 0 n) h

/-- R91: a command word is its four fields Z, B, A, OP. -/
theorem commandFields (w : BitVec 32) :
    w.extractLsb' 24 8 ++ w.extractLsb' 16 8 ++ w.extractLsb' 8 8 ++ w.extractLsb' 0 8 = w := by
  simp only [BitVec.extractLsb'_append_extractLsb'_eq_extractLsb', BitVec.extractLsb'_eq_self]

/-- R91: a word is the command word of three bytes exactly when Z is 0 and B, A, OP are these. -/
theorem commandWord_eq_iff (b a op : BitVec 8) (w : BitVec 32) :
    commandWord b a op = w ↔
      w.extractLsb' 24 8 = 0#8 ∧ w.extractLsb' 16 8 = b ∧ w.extractLsb' 8 8 = a ∧ w.extractLsb' 0 8 = op := by
  conv_lhs => rw [← commandFields w, commandWord, append_inj, append_inj, append_inj]
  simp only [and_assoc, eq_comm]

/-- R91: field A of a command word. -/
theorem extract_a_commandWord (b a op : BitVec 8) : (commandWord b a op).extractLsb' 8 8 = a :=
  ((commandWord_eq_iff b a op _).mp rfl).2.2.1

/-- R91: field B of a command word. -/
theorem extract_b_commandWord (b a op : BitVec 8) : (commandWord b a op).extractLsb' 16 8 = b :=
  ((commandWord_eq_iff b a op _).mp rfl).2.1

/-- R97: field R of a sequencer word. -/
theorem extract_r_seqWord (p : Phase) (r : BitVec 4) (i : BitVec 3) : (seqWord p r i).extractLsb' 3 4 = r := by
  rw [seqWord, BitVec.extractLsb'_append_eq_of_le (by decide), BitVec.extractLsb'_append_eq_right]

/-- R97: field I of a sequencer word. -/
theorem extract_i_seqWord (p : Phase) (r : BitVec 4) (i : BitVec 3) : (seqWord p r i).extractLsb' 0 3 = i :=
  BitVec.extractLsb'_append_eq_right

/-! ## The rows with operand fields -/

/-- R94: a word matches a row exactly when each of its four fields matches that byte of the row. -/
theorem and_mask_eq_iff (w mask : BitVec 32) (b a op : BitVec 8) :
    w &&& mask = commandWord b a op ↔
      w.extractLsb' 24 8 &&& mask.extractLsb' 24 8 = 0#8 ∧ w.extractLsb' 16 8 &&& mask.extractLsb' 16 8 = b ∧
      w.extractLsb' 8 8 &&& mask.extractLsb' 8 8 = a ∧ w.extractLsb' 0 8 &&& mask.extractLsb' 0 8 = op := by
  rw [eq_comm, commandWord_eq_iff]
  simp only [BitVec.extractLsb'_and]

/-- A mask that selects a whole field. -/
theorem and_fullMask (b : BitVec 8) : b &&& 0xFF#8 = b :=
  BitVec.and_allOnes

/-- R94: the words of INIT's row are the command words of INIT. -/
theorem initRow_iff (w : BitVec 32) :
    w &&& 0xFF0000FF#32 = 0x00000001#32 ↔ initWord (w.extractLsb' 8 8) (w.extractLsb' 16 8) = w := by
  rw [show 0x00000001#32 = commandWord 0#8 0#8 0x01#8 from rfl, and_mask_eq_iff, initWord, commandWord_eq_iff]
  simp [and_fullMask]

/-- R94: the words of SET_DLEN's row are the command words of SET_DLEN. -/
theorem setDlenRow_iff (w : BitVec 32) :
    w &&& 0xFFFF00FF#32 = 0x00000002#32 ↔ setDlenWord (w.extractLsb' 8 8) = w := by
  rw [show 0x00000002#32 = commandWord 0#8 0#8 0x02#8 from rfl, and_mask_eq_iff, setDlenWord, commandWord_eq_iff]
  simp [and_fullMask]

/-- R97: the words of MIX's row carry MIX's phase code. -/
theorem seqWord_mix_mask (r : BitVec 4) (i : BitVec 3) : seqWord .mix r i &&& 0x780#11 = 0x280#11 := by
  apply BitVec.eq_of_getLsbD_eq
  intro k hk
  simp only [seqWord, phaseCode, BitVec.getLsbD_append, BitVec.getLsbD_and]
  interval_cases k <;> simp

/-! ## Decode of an encoded instruction -/

theorem decodeCommand_initWord (d k : BitVec 8) : decodeCommand (initWord d k) = .ok (.init d k) := by
  have hA : (initWord d k).extractLsb' 8 8 = d := extract_a_commandWord k d 0x01#8
  have hB : (initWord d k).extractLsb' 16 8 = k := extract_b_commandWord k d 0x01#8
  have hrow : initWord d k &&& 0xFF0000FF#32 = 0x00000001#32 := (initRow_iff _).mpr (by rw [hA, hB])
  rw [decodeCommand, if_pos hrow, hA, hB]

theorem decodeCommand_setDlenWord (n : BitVec 8) : decodeCommand (setDlenWord n) = .ok (.setDlen n) := by
  have hA : (setDlenWord n).extractLsb' 8 8 = n := extract_a_commandWord 0#8 n 0x02#8
  have hinit : setDlenWord n &&& 0xFF0000FF#32 ≠ 0x00000001#32 :=
    OpcodeRow.low_byte 0#8 n 0x02#8 _ _ (by decide) (by decide)
  have hrow : setDlenWord n &&& 0xFFFF00FF#32 = 0x00000002#32 := (setDlenRow_iff _).mpr (by rw [hA])
  rw [decodeCommand, if_neg hinit, if_pos hrow, hA]

theorem decodeSeq_seqWord_mix (r : BitVec 4) (i : BitVec 3) (hr : r.toNat < 12) :
    decodeSeq (seqWord .mix r i) = .ok (.mix r i) := by
  rw [decodeSeq, if_pos (seqWord_mix_mask r i), extract_r_seqWord, extract_i_seqWord, if_pos hr]

/-- Settles O1: the instructions with operands have their own lemmas, every other one has a single word. -/
theorem decodeOfEncodedInstruction : Obligations.DecodeOfEncodedInstruction := by
  intro i hwf
  cases i with
  | init d k => exact decodeCommand_initWord d k
  | setDlen n => exact decodeCommand_setDlenWord n
  | mix r j => exact decodeSeq_seqWord_mix r j (of_decide_eq_true hwf)
  | setSalt | setPers | hash | clrErr | idle | start | check | load | vinit | fold | next | out => rfl

/-! ## Encode of a decoded word -/

/-- R94: a command word that decodes is the word of what it decodes to. -/
theorem encode_of_decodeCommand {w : BitVec 32} {i : Instr} (h : decodeCommand w = .ok i) : encode i = .command w := by
  unfold decodeCommand at h
  split_ifs at h with hinit hdlen <;> cases h
  · exact congrArg Encoded.command ((initRow_iff w).mp hinit)
  · exact congrArg Encoded.command ((setDlenRow_iff w).mp hdlen)
  all_goals (subst_vars; rfl)

/-- R94: every command is well formed. -/
theorem wellFormed_of_isCommand {i : Instr} (h : isCommand i = true) : wellFormed i = true := by
  cases i with
  | init | setDlen | setSalt | setPers | hash | clrErr => rfl
  | idle | start | check | load | vinit | mix | fold | next | out => cases h

/-- R99: a sequencer word decodes to a step of the map; the round index of a MIX step is tested. -/
theorem wellFormed_of_decodeSeq {w : BitVec 11} {i : Instr} (h : decodeSeq w = .ok i) : wellFormed i = true := by
  unfold decodeSeq at h
  split_ifs at h <;> cases h
  case pos hr => exact decide_eq_true hr
  all_goals rfl

/-- Settles O2: one lemma for the words and one for well-formedness, for each of the two formats. -/
theorem encodeOfDecodedWord : Obligations.EncodeOfDecodedWord := by
  intro e i h
  cases e with
  | command w => exact ⟨wellFormed_of_isCommand (isCommand_of_decodeCommand h), encode_of_decodeCommand h⟩
  | sequencer w => exact ⟨wellFormed_of_decodeSeq h, encode_of_decodeSeq h⟩

/-! ## Which words decode -/

/-- Settles O3: the decoder's tests are the rows of R94 in order, and it refuses when all six fail. -/
theorem legalCommandWordsMatchARow : Obligations.LegalCommandWordsMatchARow := by
  intro w
  unfold decodeCommand LegalCommandWord
  split_ifs with hinit hdlen hsalt hpers hhash hclr
  case neg => simp [hinit, hdlen, hsalt, hpers, hhash, hclr]
  all_goals exact iff_of_true ⟨_, rfl⟩ (by tauto)

theorem seqProduced_iff (w : BitVec 11) : seqProduced w = true ↔ ∃ i, decodeSeq w = .ok i := by
  unfold seqProduced
  cases decodeSeq w <;> simp

/-- R27: the phase codes are 0 to 8. -/
theorem phaseCode_le (p : Phase) : (phaseCode p).toNat ≤ 8 := by
  cases p <;> decide

/-- R27: each of 0 to 8 is the code of a phase. -/
theorem phaseCode_surjective (c : BitVec 4) (h : c.toNat ≤ 8) : ∃ p, phaseCode p = c := by
  have hlisted : ∀ c : BitVec 4, c.toNat ≤ 8 →
      ∃ p ∈ [Phase.idle, .start, .check, .load, .vinit, .mix, .fold, .next, .out], phaseCode p = c := by decide
  obtain ⟨p, -, hp⟩ := hlisted c h
  exact ⟨p, hp⟩

/-- R97: the word of a well-formed sequencer step: a round index of the table in MIX, R = I = 0 elsewhere. -/
theorem seqWord_of_encode {i : Instr} {w : BitVec 11} (hwf : wellFormed i = true) (h : encode i = .sequencer w) :
    ∃ p r j, seqWord p r j = w ∧ (p = .mix → r.toNat < 12) ∧ (p ≠ .mix → r = 0#4 ∧ j = 0#3) := by
  cases i with
  | init | setDlen | setSalt | setPers | hash | clrErr => cases h
  | mix r j =>
    exact ⟨.mix, r, j, Encoded.sequencer.inj h, fun _ => of_decide_eq_true hwf, fun hp => absurd rfl hp⟩
  | idle | start | check | load | vinit | fold | next | out =>
    exact ⟨_, _, _, Encoded.sequencer.inj h, nofun, fun _ => ⟨rfl, rfl⟩⟩

theorem phaseCode_eq_mix_iff (p : Phase) : phaseCode p = 5#4 ↔ p = .mix := by
  cases p <;> decide

/-- Settles O4: a word that decodes is the word of a well-formed step, and each such word decodes. -/
theorem producedSequencerWords : Obligations.ProducedSequencerWords := by
  intro c r i
  constructor
  · intro h
    obtain ⟨x, hx⟩ := (seqProduced_iff _).mp h
    obtain ⟨p, r', j, hw, hmix, hother⟩ := seqWord_of_encode (wellFormed_of_decodeSeq hx) (encode_of_decodeSeq hx)
    rw [seqWord, append_inj, append_inj] at hw
    obtain ⟨⟨rfl, rfl⟩, rfl⟩ := hw
    simp only [ne_eq, phaseCode_eq_mix_iff]
    exact ⟨phaseCode_le p, fun hp => Nat.le_of_lt_succ (hmix hp), hother⟩
  · rintro ⟨hc, hmix, hother⟩
    obtain ⟨p, rfl⟩ := phaseCode_surjective c hc
    by_cases hp : phaseCode p = 5#4
    · obtain rfl := (phaseCode_eq_mix_iff p).mp hp
      exact (seqProduced_iff _).mpr ⟨_, decodeSeq_seqWord_mix r i (Nat.lt_succ_of_le (hmix hp))⟩
    · obtain ⟨rfl, rfl⟩ := hother hp
      exact seqProduced_seqWord p

/-- Settles O5: each word is the encoder's word of its instruction, so the round trip decodes it. -/
theorem listedWordsDecode : Obligations.ListedWordsDecode :=
  ⟨decodeCommand_initWord 64 64, decodeCommand_initWord 20 5, decodeCommand_setDlenWord 16,
    decodeOfEncodedInstruction .hash rfl, decodeOfEncodedInstruction .start rfl, decodeSeq_seqWord_mix 3 5 (by decide),
    decodeSeq_seqWord_mix 11 7 (by decide), decodeOfEncodedInstruction .out rfl⟩

/-! ## What a turn comes to -/

/-- R97: the engine's turn at a word that decodes. -/
theorem step_of_engine {s : State} {i : Instr} (hturn : nextTurn s = .engine) (hd : decodeSeq s.seq = .ok i) :
    step s = exec i (afterTurn s) :=
  step_of_runs (by simp only [hturn, fetchTurn, fetchEngine, afterTurn_seq, hd])

/-- R99: the engine's turn at a word that does not decode. -/
theorem step_of_engine_error {s : State} {e : DecodeError} (hturn : nextTurn s = .engine)
    (hd : decodeSeq s.seq = .error e) : step s = .fault (.seqNeverProduced s.seq) :=
  step_of_ends (by simp only [hturn, fetchTurn, fetchEngine, afterTurn_seq, hd])

/-- R92: a command word fits CMD. -/
theorem commandValue_fits (w : BitVec 32) : (w.setWidth 64).toNat < 2 ^ regWidth 0 := by
  rw [BitVec.toNat_setWidth_of_le (by decide)]
  exact w.isLt

/-- R92: a HostWrite to CMD of a word that decodes comes to its instruction. -/
theorem fetchWrite_command {w : BitVec 32} {i : Instr} (s : State) (hd : decodeCommand w = .ok i) :
    fetchWrite 0 (w.setWidth 64) s = .runs i := by
  rw [fetchWrite_fits 0 _ s (commandValue_fits w), if_pos rfl, BitVec.setWidth_setWidth_of_le w (by decide),
    BitVec.setWidth_eq, hd]

/-- R92, R96: a write to CMD of a word that decodes. -/
theorem step_of_command {s : State} {w : BitVec 32} {i : Instr} (hturn : WritesCommand s w)
    (hd : decodeCommand w = .ok i) : step s = exec i (afterTurn s) :=
  step_of_runs (by rw [hturn, fetchTurn, fetchWrite_command _ hd])

/-- R92: a write to another register than CMD, of a value that fits. -/
theorem step_of_write {s : State} {reg : Nat} {v : BitVec 64} (hturn : nextTurn s = .write reg v) (hreg : reg ≠ 0)
    (hfits : v.toNat < 2 ^ regWidth reg) : step s = .next (writeRegister reg v (afterTurn s)) :=
  step_of_ends (by rw [hturn, fetchTurn, fetchWrite_fits reg v _ hfits, if_neg hreg])

/-- U10: a write of a value that does not fit. -/
theorem step_of_wide_write {s : State} {reg : Nat} {v : BitVec 64} (hturn : nextTurn s = .write reg v)
    (hwide : 2 ^ regWidth reg ≤ v.toNat) : step s = .refused (.hostValueTooWide reg v) :=
  step_of_ends (by rw [hturn, fetchTurn, fetchWrite, if_pos hwide])

/-- Settles O6: the state with the turn off the agenda is `afterTurn`. -/
theorem engineTurnRunsDecodedStep : Obligations.EngineTurnRunsDecodedStep :=
  fun _ _ hturn hd => step_of_engine hturn hd

/-- Settles O7: the write fits CMD, and its word is the one decoded. -/
theorem commandWriteRunsDecodedCommand : Obligations.CommandWriteRunsDecodedCommand :=
  fun _ _ _ hturn hd => step_of_command hturn hd

/-- Settles O9: a word that is not produced decodes to an error, and the MIX meaning tests its round index. -/
theorem neverProducedSequencerWordFaults : Obligations.NeverProducedSequencerWordFaults := by
  refine ⟨fun s hturn hprod => ?_, fun r i s hr => dif_neg (Nat.not_lt.mpr hr)⟩
  cases hd : decodeSeq s.seq with
  | ok i => exact absurd ((seqProduced_iff _).mpr ⟨i, hd⟩) (Bool.eq_false_iff.mp hprod)
  | error e => exact step_of_engine_error hturn hd

/-- R39: CMD, STATUS and ERRINFO are 32 bits wide. -/
theorem regWidth_low {reg : Nat} (h : reg ≤ 2) : regWidth reg = 32 :=
  if_pos (by omega)

/-- Settles O10: registers 0 to 2 are 32 bits wide and OUT_LEN is 8. -/
theorem tooWideHostValueIsRefused : Obligations.TooWideHostValueIsRefused := by
  rintro s reg v hturn (⟨hreg, hv⟩ | ⟨rfl, hv⟩)
  · exact step_of_wide_write hturn (by rwa [regWidth_low hreg])
  · exact step_of_wide_write hturn hv

/-- R92, R39: with BUSY = 0 a register that is no staging register discards what is written to it. -/
theorem writeRegister_discards {reg : Nat} (v : BitVec 64) {s : State} (hb : s.busy = false)
    (hreg : reg < 4 ∨ 8 < reg) : writeRegister reg v s = s := by
  rw [writeRegister, if_neg (Bool.eq_false_iff.mp hb)]
  simp (disch := omega) only [if_neg]

/-- Settles O13: none of these is CMD or a staging register. -/
theorem readOnlyAndReservedWritesAreDiscarded : Obligations.ReadOnlyAndReservedWritesAreDiscarded := by
  intro s reg v hb hturn hfits hreg
  rw [step_of_write hturn (by omega) hfits, writeRegister_discards (s := afterTurn s) v hb (by omega)]
  rfl

/-- Settles O20, by the rule of a command presented while BUSY = 1. -/
theorem commandsWhileBusySetOverrun : Obligations.CommandsWhileBusySetOverrun :=
  fun _ _ hi hb => exec_command_busy hi hb

end Sys2Proof.Proofs.EncodingRules

/-! PROOFS of the parameter family (40_param_init.md): H0 is IV xor the parameter block word by word, so it gives the stored
fields back; the obligation that says so. -/

namespace Sys2Proof.Proofs.ParamInitRules

open Sys2Proof.Machine Sys2Proof.Laws Sys2Proof.Proofs.StateRules Sys2Proof.Proofs.EncodingRules

/-- R122: word `k` of H0. -/
theorem h0_getElem (pb : Nat → Byte) (k : Fin 8) : (h0 pb)[k] = iv[k] ^^^ pword pb k.val := by
  simp [h0]

/-- R122: IV is a constant, so H0 gives back every word of the parameter block. -/
theorem pword_eq_of_h0_eq {pb pb' : Nat → Byte} (h : h0 pb = h0 pb') (k : Fin 8) :
    pword pb k.val = pword pb' k.val := by
  have hk : (h0 pb)[k] = (h0 pb')[k] := by rw [h]
  rwa [h0_getElem, h0_getElem, BitVec.xor_right_inj] at hk

/-- R31, R32: P[0] holds the key length and the digest length, each in a byte of its own. -/
theorem pword_first_inj {s t : State} :
    pword (pbView s) 0 = pword (pbView t) 0 ↔ s.dlen = t.dlen ∧ s.klen = t.klen := by
  rw [pword_first, pword_first, append_inj, append_inj, eq_self, true_and, and_comm]

/-- Settles O46: H0 gives back the parameter words, P[0] the two lengths, P[4] to P[7] the salt and the personalization. -/
theorem initialChainingValueIsInjective : Obligations.InitialChainingValueIsInjective := by
  intro s t h
  have hword := pword_eq_of_h0_eq h
  obtain ⟨hdlen, hklen⟩ := pword_first_inj.mp (hword 0)
  refine ⟨hdlen, hklen, ?_, ?_, ?_, ?_⟩
  · rw [← pword_salt0 s, ← pword_salt0 t]; exact hword 4
  · rw [← pword_salt1 s, ← pword_salt1 t]; exact hword 5
  · rw [← pword_pers0 s, ← pword_pers0 t]; exact hword 6
  · rw [← pword_pers1 s, ← pword_pers1 t]; exact hword 7

end Sys2Proof.Proofs.ParamInitRules


/-! PROOFS of the block source family (41_block_source.md): a message word by its three cases and a block byte by byte; the
two obligations. -/

namespace Sys2Proof.Proofs.BlockSourceRules

open Sys2Proof.Machine Sys2Proof.Laws

/-! ## Message words -/

/-- R142: a message word with no byte below LEN is 0, whatever the message is. -/
theorem msgWord_beyond (msg : Nat → Byte) {len p : Nat} (h : len ≤ 8 * p) : msgWord msg len p = 0#64 := by
  have hbytes : ∀ j, j < 8 → msgByte msg len (8 * p + j) = 0#8 := fun j _ => if_neg (by omega)
  rw [msgWord, le64_congr _ _ hbytes, le64_zero]

/-- Settles O36: a byte of the word is a message byte exactly when its address is below LEN, which each case decides. -/
theorem messageWordCases : Obligations.MessageWordCases := by
  intro msg len p
  refine ⟨fun hwhole n => ?_, fun _ _ n => ?_, msgWord_beyond msg⟩
  · rw [byteOf_msgWord, if_pos (by omega)]
  · have hbelow : 8 * p + n.val < len ↔ n.val < len - 8 * p := by omega
    simp only [byteOf_msgWord, hbelow]

/-! ## The block buffer -/

/-- R143: byte `n` of word `j` of block `b` is the message byte at `128 b + 8 j + n`, or 0 when that is not below LEN. -/
theorem byteOf_block (msg : Nat → Byte) (len b : Nat) (j : Fin 16) (n : Fin 8) :
    byteOf (block msg len b)[j] n.val =
      if 128 * b + 8 * j.val + n.val < len then msg (128 * b + 8 * j.val + n.val) else 0#8 := by
  have hword : (block msg len b)[j] = msgWord msg len (16 * b + j.val) := by simp [block]
  have haddr : 8 * (16 * b + j.val) + n.val = 128 * b + 8 * j.val + n.val := by omega
  rw [hword, byteOf_msgWord, haddr]

/-- Settles O34: LOAD writes block BLK of the engine's bytes, which with no racing store are those of the memory. -/
theorem loadFillsTheBlockBuffer : Obligations.LoadFillsTheBlockBuffer :=
  fun s => ⟨_, rfl, rfl, byteOf_block (engineByte s) s.len.toNat s.blk.toNat, fun hquiet a => engineByte_quiet s a hquiet⟩

end Sys2Proof.Proofs.BlockSourceRules


/-! PROOFS of the mixing family (42_mixing_g.md): the operators of GQ on bits, GQ undone step by step, the lanes and the
sequencer word after a MIX step; the two obligations. -/

namespace Sys2Proof.Proofs.MixingRules

open Sys2Proof.Machine Sys2Proof.Laws

/-! ## GQ -/

/-- R161: result bit `j` of a rotation by `n` is bit `(j + n) mod 64`. -/
theorem rotr64_getLsbD (x : Word) {n j : Nat} (hn : n < 64) (hj : j < 64) :
    (rotr64 x n).getLsbD j = x.getLsbD ((j + n) % 64) := by
  simp only [rotr64, BitVec.getLsbD_or, BitVec.getLsbD_ushiftRight, BitVec.getLsbD_shiftLeft]
  by_cases htop : j + n < 64
  · have hfell : j < 64 - n := by omega
    simp [hfell, Nat.mod_eq_of_lt htop, Nat.add_comm n j]
  · have hagain : (j + n) % 64 = j - (64 - n) := by omega
    have hstayed : ¬ j < 64 - n := by omega
    rw [BitVec.getLsbD_of_ge x (n + j) (by omega), hagain]
    simp [hj, hstayed]

/-- R162 (e): the rotation that undoes a rotation. -/
theorem rotr64_rotr64 (x : Word) {n m : Nat} (h : n + m = 64) (hn : 0 < n) (hm : 0 < m) :
    rotr64 (rotr64 x n) m = x := by
  apply BitVec.eq_of_getLsbD_eq
  intro j hj
  rw [rotr64_getLsbD _ (by omega) hj, rotr64_getLsbD _ (by omega) (by omega)]
  congr 1
  omega

/-- R162 (e): the eight steps of GQ undone in reverse order. -/
def gqInverse (q : Quad Word) (x y : Word) : Quad Word :=
  let b1 := rotr64 q.b 1 ^^^ q.c
  let c1 := q.c - q.d
  let d1 := rotr64 q.d 48 ^^^ q.a
  let a1 := q.a - y - b1
  let b := rotr64 b1 40 ^^^ c1
  let c := c1 - d1
  let d := rotr64 d1 32 ^^^ a1
  ⟨a1 - x - b, b, c, d⟩

/-- R162 (e): undoing the steps after taking them. -/
theorem gqInverse_gq (q : Quad Word) (x y : Word) : gqInverse (gq q x y) x y = q := by
  simp [gqInverse, gq, rotr64_rotr64]

/-- R162 (e): taking the steps after undoing them. -/
theorem gq_gqInverse (q : Quad Word) (x y : Word) : gq (gqInverse q x y) x y = q := by
  simp [gqInverse, gq, rotr64_rotr64]

/-- Settles O44: the operators by their bits, the eight steps by their names, the bijection by its inverse. -/
theorem gqIsEightInvertibleSteps : Obligations.GqIsEightInvertibleSteps := by
  refine ⟨fun a b x => ?_, fun x n j _ hn hj => rotr64_getLsbD x hn hj, fun x j hj => ?_, ?_, fun x y => ?_⟩
  · rw [BitVec.toNat_add, BitVec.toNat_add, Nat.mod_add_mod]
  · rw [rotr64_getLsbD x (by omega) (by omega)]
    congr 1
    omega
  · rintro a b c d x y _ _ _ _ _ _ _ _ rfl rfl rfl rfl rfl rfl rfl rfl
    rfl
  · exact Function.bijective_iff_has_inverse.mpr
      ⟨fun q => gqInverse q x y, fun q => gqInverse_gq q x y, fun q => gq_gqInverse q x y⟩

/-! ## MIX -/

/-- R97: a sequencer word as a number. -/
theorem seqWord_toNat (p : Phase) (r : BitVec 4) (i : BitVec 3) :
    (seqWord p r i).toNat = 128 * (phaseCode p).toNat + 8 * r.toNat + i.toNat := by
  rw [seqWord, append_toNat, append_toNat]
  omega

/-- R163: where SEQ goes after a MIX step, as a number. -/
theorem mixSuccessor_toNat (r : BitVec 4) (i : BitVec 3) :
    (mixSuccessor r i).toNat = if i.toNat < 7 then 0x280 + 8 * r.toNat + (i.toNat + 1)
      else if r.toNat < 11 then 0x280 + 8 * (r.toNat + 1) else 0x300 := by
  unfold mixSuccessor
  split_ifs with hi hr
  · have hnext : (i + 1).toNat = i.toNat + 1 := by bv_omega
    rw [seqWord_toNat, hnext]
    rfl
  · have hnext : (r + 1).toNat = r.toNat + 1 := by bv_omega
    rw [seqWord_toNat, hnext]
    rfl
  · rfl

/-- R163: the lanes of an application are distinct, so each holds its new word after they are replaced. -/
theorem lanes_setLanes_same (v : Vector Word 16) (i : Fin 8) (w : Quad Word) :
    lanes (setLanes v (quad i) w) (quad i) = w := by
  obtain ⟨hab, hac, had, hbc, hbd, hcd⟩ := quad_distinct i
  simp only [lanes, setLanes_get]
  simp [hab, hac, had, hbc, hbd, hcd]

/-- R163: a lane outside the quadruple keeps its word. -/
theorem setLanes_get_other (v : Vector Word 16) (q : Quad (Fin 16)) (w : Quad Word) (l : Fin 16)
    (ha : l ≠ q.a) (hb : l ≠ q.b) (hc : l ≠ q.c) (hd : l ≠ q.d) : (setLanes v q w)[l] = v[l] := by
  rw [setLanes_get, if_neg hd, if_neg hc, if_neg hb, if_neg ha]

/-- R42: each row of SIGMA is a permutation. -/
theorem sigma_bijective (r : Fin 12) : Function.Bijective (sigma r) := by
  have hsurjective : ∀ (r : Fin 12) (k : Fin 16), ∃ j, sigma r j = k := by decide
  exact Finite.surjective_iff_bijective.mp (hsurjective r)

/-- Settles O38: the step writes the new lanes and SEQ; the quadruple holds GQ's words and no other lane changes. -/
theorem mixAppliesG : Obligations.MixAppliesG := by
  refine ⟨fun r i s hr => ⟨_, exec_mix r i s hr, rfl, ?_, mixSuccessor_toNat r i⟩, sigma_bijective⟩
  have hnew := lanes_setLanes_same s.v i.toFin
    (gq (lanes s.v (quad i.toFin)) (mixX s.m ⟨r.toNat, hr⟩ i.toFin) (mixY s.m ⟨r.toNat, hr⟩ i.toFin))
  exact ⟨congrArg Quad.a hnew, congrArg Quad.b hnew, congrArg Quad.c hnew, congrArg Quad.d hnew,
    setLanes_get_other s.v (quad i.toFin) _⟩

end Sys2Proof.Proofs.MixingRules


/-! PROOFS of the round family (43_round.md): replacing the lanes of disjoint quadruples in either order, and the
obligation. -/

namespace Sys2Proof.Proofs.RoundRules

open Sys2Proof.Machine Sys2Proof.Laws Sys2Proof.Proofs.MixingRules

/-- `setLanes_get_other` for a lane outside the quadruple as a list, the form `quad_disjoint` gives. -/
theorem setLanes_get_of_notMem (v : Vector Word 16) (q : Quad (Fin 16)) (w : Quad Word) {l : Fin 16}
    (h : l ∉ [q.a, q.b, q.c, q.d]) : (setLanes v q w)[l] = v[l] := by
  simp only [List.mem_cons, List.not_mem_nil, or_false, not_or] at h
  obtain ⟨ha, hb, hc, hd⟩ := h
  exact setLanes_get_other v q w l ha hb hc hd

/-- A lane outside the first of two replaced quadruples holds what replacing the second alone gives it. -/
theorem setLanes_setLanes_get_of_notMem (v : Vector Word 16) (p q : Quad (Fin 16)) (u w : Quad Word) {l : Fin 16}
    (h : l ∉ [p.a, p.b, p.c, p.d]) : (setLanes (setLanes v p u) q w)[l] = (setLanes v q w)[l] := by
  rw [setLanes_get, setLanes_get_of_notMem v p u h, ← setLanes_get]

/-- R183: disjoint quadruples may be replaced in either order, as each lane is outside one of them. -/
theorem setLanes_comm (v : Vector Word 16) (p q : Quad (Fin 16)) (u w : Quad Word)
    (h : ∀ l ∈ [q.a, q.b, q.c, q.d], l ∉ [p.a, p.b, p.c, p.d]) :
    setLanes (setLanes v p u) q w = setLanes (setLanes v q w) p u := by
  have hlane (l : Fin 16) : (setLanes (setLanes v p u) q w)[l] = (setLanes (setLanes v q w) p u)[l] := by
    by_cases hl : l ∈ [q.a, q.b, q.c, q.d]
    · rw [setLanes_setLanes_get_of_notMem v p q u w (h l hl), setLanes_get_of_notMem _ p u (h l hl)]
    · rw [setLanes_setLanes_get_of_notMem v q p w u hl, setLanes_get_of_notMem _ q w hl]
  exact Vector.ext fun k hk => hlane ⟨k, hk⟩

/-- R183: an application leaves the words that another application of its group reads. -/
theorem lanes_gStep_other (m v : Vector Word 16) (r : Fin 12) {i j : Fin 8} (hgroup : i.val < 4 ↔ j.val < 4)
    (hij : i ≠ j) : lanes (gStep m r j v) (quad i) = lanes v (quad i) :=
  lanes_setLanes v (quad i) (quad j) _ (quad_disjoint i j hgroup hij)

/-- Settles O45: two different applications of one group read words the other leaves and write disjoint lanes. -/
theorem applicationsOfOneGroupCommute : Obligations.ApplicationsOfOneGroupCommute := by
  intro m v r i j hgroup
  by_cases hij : i = j
  · rw [hij]
  · rw [gStep, lanes_gStep_other m v r hgroup hij, gStep.eq_def m r j (gStep m r i v),
      lanes_gStep_other m v r hgroup.symm (Ne.symm hij)]
    exact setLanes_comm v (quad j) (quad i) _ _ (quad_disjoint i j hgroup hij)

end Sys2Proof.Proofs.RoundRules


/-! PROOFS of the compress family (44_compress_f.md): the lanes VINIT builds and the words FOLD builds at function level,
then the obligations. -/

namespace Sys2Proof.Proofs.CompressRules

open Sys2Proof.Machine

/-! ## VINIT -/

/-- R191: lanes 0 to 7 are the chaining value. -/
theorem vinit_getElem_low (h : Vector Word 8) (t0 t1 f0 f1 : Word) (k : Fin 8) :
    (vinit h t0 t1 f0 f1)[k.val] = h[k] := by
  fin_cases k <;> rfl

/-- R191: lanes 8 to 11 are the first four words of IV, whatever the inputs. -/
theorem vinit_getElem_iv (h : Vector Word 8) (t0 t1 f0 f1 : Word) (k : Fin 4) :
    (vinit h t0 t1 f0 f1)[8 + k.val] = iv[k.val] := by
  fin_cases k <;> rfl

/-- Settles O37: one rule for the lanes of H, one for those of IV; the last four lanes and SEQ are as VINIT writes them. -/
theorem vinitBuildsTheWorkingState : Obligations.VinitBuildsTheWorkingState := fun s =>
  ⟨_, rfl, rfl, vinit_getElem_low s.h s.t0 s.t1 s.f0 s.f1, vinit_getElem_iv s.h s.t0 s.t1 s.f0 s.f1, rfl, rfl, rfl, rfl⟩

/-! ## FOLD -/

/-- R193: word `k` is computed from word `k` of the old chaining value. -/
theorem foldWords_getElem (h : Vector Word 8) (v : Vector Word 16) (k : Fin 8) :
    (foldWords h v)[k] = h[k] ^^^ v[k.val] ^^^ v[k.val + 8] := by
  simp [foldWords]

/-- Settles O39: the words by `foldWords_getElem`, and FINAL chooses the word written to SEQ. -/
theorem foldReplacesTheChainingValue : Obligations.FoldReplacesTheChainingValue := fun s =>
  ⟨_, rfl, rfl, foldWords_getElem s.h s.v, fun hfinal => if_pos hfinal, fun hfinal => if_neg (by simp [hfinal])⟩

end Sys2Proof.Proofs.CompressRules


/-! PROOFS of the driver family (45_driver.md): the single steps of the driver, HASHF's loop as iterated passes, SEQ's
transition table, and a whole hash call as HASHF; the obligations among them. -/

namespace Sys2Proof.Proofs.DriverRules

open Sys2Proof.Machine Sys2Proof.Laws Sys2Proof.Proofs.StateRules Sys2Proof.Proofs.EncodingRules
open Sys2Proof.Proofs.ParamInitRules Sys2Proof.Proofs.BlockSourceRules Sys2Proof.Proofs.MixingRules

/-! ## The engine's turn at a known word -/

/-- R97: a word that a well-formed step encodes to decodes to that step. -/
theorem decodeSeq_of_encode {i : Instr} {w : BitVec 11} (hwf : wellFormed i = true) (hi : encode i = .sequencer w) :
    decodeSeq w = .ok i := by
  have h := decodeOfEncodedInstruction i hwf
  rwa [hi] at h

/-- R97: the engine's turn at the word of a well-formed step runs that step. -/
theorem step_of_encode {s : State} {i : Instr} (hturn : nextTurn s = .engine) (hwf : wellFormed i = true)
    (hi : encode i = .sequencer s.seq) : step s = exec i (afterTurn s) :=
  step_of_engine hturn (decodeSeq_of_encode hwf hi)

/-! ## The driver's steps -/

/-- Settles O31: the engine's turn in IDLE runs the IDLE step, which gives the state back. -/
theorem idleChangesNothing : Obligations.IdleChangesNothing :=
  ⟨fun _ => rfl, fun _ hturn hseq => step_of_encode (i := .idle) hturn rfl (congrArg Encoded.sequencer hseq.symm)⟩

/-- R32: P[0] as a sum of its fields. -/
theorem pword_first_sum (s : State) :
    pword (pbView s) 0 = 0x0000000001010000#64 + 256#64 * s.klen.setWidth 64 + s.dlen.setWidth 64 := by
  obtain ⟨hfirst, -⟩ := parameterBlockWords s
  apply BitVec.eq_of_toNat_eq
  rw [hfirst]
  bv_omega

/-- R122: the eight words of H0 written out. -/
theorem h0_words (pb : Nat → Byte) :
    h0 pb = #v[iv[0] ^^^ pword pb 0, iv[1] ^^^ pword pb 1, iv[2] ^^^ pword pb 2, iv[3] ^^^ pword pb 3,
               iv[4] ^^^ pword pb 4, iv[5] ^^^ pword pb 5, iv[6] ^^^ pword pb 6, iv[7] ^^^ pword pb 7] := rfl

/-- R213, R32, R122: H0 of the stored fields, word by word. -/
theorem h0_pbView (s : State) :
    h0 (pbView s) =
      #v[iv[0] ^^^ (0x0000000001010000#64 + 256#64 * s.klen.setWidth 64 + s.dlen.setWidth 64), iv[1], iv[2], iv[3],
         iv[4] ^^^ s.salt0, iv[5] ^^^ s.salt1, iv[6] ^^^ s.pers0, iv[7] ^^^ s.pers1] := by
  rw [h0_words, pword_first_sum, pword_zero s 1 (by decide), pword_zero s 2 (by decide), pword_zero s 3 (by decide),
    pword_salt0, pword_salt1, pword_pers0, pword_pers1, BitVec.xor_zero, BitVec.xor_zero, BitVec.xor_zero]

/-- Settles O32: START's registers as its rule lists them, H0 word by word. -/
theorem startInitialisesTheCall : Obligations.StartInitialisesTheCall := by
  intro s
  rw [← h0_pbView]
  rfl

/-- Settles O33: each branch by the loop test of CHECK. -/
theorem checkSelectsTheBlock : Obligations.CheckSelectsTheBlock := by
  refine fun s => ⟨fun hmore => ?_, fun hlast => ?_⟩
  · exact congrArg Host.Outcome.next (if_pos ((moreBlocks_iff s).mpr hmore))
  · exact congrArg Host.Outcome.next (if_neg (mt (moreBlocks_iff s).mp (Nat.not_lt.mpr hlast)))

/-- Settles O40: sums that fit their registers do not wrap. -/
theorem nextAdvancesTheBlock : Obligations.NextAdvancesTheBlock := by
  refine fun s => ⟨_, rfl, rfl, fun hblk => ?_, fun hoffset => ?_⟩
  · exact BitVec.toNat_add_of_lt hblk
  · exact BitVec.toNat_add_of_lt hoffset

/-- R218: in a call no host store raced with OUT delivers H. -/
theorem callResult_quiet {s : State} (hquiet : s.overwritten = []) : callResult s = s.h :=
  if_pos (by simp [hquiet])

/-- R218: OUT in a call no host store raced with, whose record of races stays empty. -/
theorem exec_out_quiet {s : State} (hquiet : s.overwritten = []) :
    exec .out s = .next { s with
      digest := digestBytes s.h, outLen := s.dlen, busy := false, done := true, seq := seqWord .idle 0 0 } := by
  change execOut s = _
  rw [execOut, callResult_quiet hquiet, ← hquiet]

/-- Settles O41: DIGEST is the bytes of H, which its registers show as the words of H. -/
theorem outDeliversTheDigest : Obligations.OutDeliversTheDigest := by
  refine fun s hquiet => ⟨_, exec_out_quiet hquiet, rfl, digestBytes_get s.h, fun k => ?_⟩
  rw [readRegister_digest, digestWord_digestBytes]

/-- R219: the reported digest has as many bytes as asked for, up to 64. -/
theorem digestOf_length (digest : Vector Byte 64) {n : Nat} (hn : n ≤ 64) : (digestOf digest n).length = n := by
  simpa [digestOf] using hn

/-- R219: the reported digest starts as DIGEST does. -/
theorem digestOf_getElem? (digest : Vector Byte 64) {n k : Nat} (hk : k < n) :
    (digestOf digest n)[k]? = digest[k]? := by
  simp [digestOf, List.getElem?_take_of_lt hk]

/-- Settles O43: OUT_LEN is DLEN, which a legal configuration keeps at 64 or below. -/
theorem reportedDigestIsAPrefix : Obligations.ReportedDigestIsAPrefix := by
  intro s t hlegal hcfg h
  obtain ⟨-, hdlen, -, -⟩ := hlegal hcfg
  cases h
  exact ⟨digestOf_length _ hdlen, fun _ hn => digestOf_getElem? _ hn⟩

/-! ## HASHF's loop -/

/-- R143: the block of an empty message is all zero. -/
theorem block_empty (msg : Nat → Byte) (b : Nat) : block msg 0 b = Vector.replicate 16 0#64 :=
  Vector.ext fun j _ => by simp [block, msgWord_beyond msg (Nat.zero_le _)]

/-- Settles O47: LEN 0 gives the loop no pass, so the last block is block 0, all zero. -/
theorem emptyMessageIsOneZeroBlock : Obligations.EmptyMessageIsOneZeroBlock := by
  intro d k salt pers msg
  rw [← block_empty msg 0]
  rfl

/-- The number of passes HASHF's loop makes from offset `off` (R216): the tests `off + 128 < LEN` that succeed. -/
def passes (len off : Nat) : Nat := (len - off - 1) / 128

/-- R210: the loop makes its passes and stops by its own test, unless its bound is smaller. -/
theorem hashLoop_eq_iterate (msg : Nat → Byte) (len fuel : Nat) (x : LoopVars) :
    hashLoop msg len fuel x = (loopBody msg len)^[min fuel (passes len x.off)] x := by
  induction fuel generalizing x with
  | zero => simp [hashLoop]
  | succ fuel ih =>
    by_cases hmore : x.off + 128 < len
    · have hpasses : min (fuel + 1) (passes len x.off) = min fuel (passes len (x.off + 128)) + 1 := by
        unfold passes
        omega
      rw [hashLoop, if_pos hmore, ih, hpasses, Function.iterate_succ_apply]
      rfl
    · have hpasses : passes len x.off = 0 := by
        unfold passes
        omega
      rw [hashLoop, if_neg hmore, hpasses, Nat.min_zero, Function.iterate_zero_apply]

/-- R210: each pass advances the offset by 128. -/
theorem loopBody_iterate_off (msg : Nat → Byte) (len n : Nat) (x : LoopVars) :
    ((loopBody msg len)^[n] x).off = x.off + 128 * n := by
  induction n with
  | zero => rfl
  | succ n ih => rw [Function.iterate_succ_apply', loopBody, ih, Nat.mul_succ, Nat.add_assoc]

/-- R210: each pass advances the block index by 1. -/
theorem loopBody_iterate_b (msg : Nat → Byte) (len n : Nat) (x : LoopVars) :
    ((loopBody msg len)^[n] x).b = x.b + n := by
  induction n with
  | zero => rfl
  | succ n ih => rw [Function.iterate_succ_apply', loopBody, ih, Nat.add_assoc]

/-- R221: from the start of a message the loop makes N - 1 passes. -/
theorem passes_zero (len : Nat) : passes len 0 = compressions len - 1 := by
  unfold passes compressions
  omega

/-- R210, R221: a bound of LEN / 128 or more lets the loop make all its N - 1 passes. -/
theorem hashLoop_from_start (msg : Nat → Byte) {len fuel : Nat} (h : Vector Word 8) (hfuel : len / 128 ≤ fuel) :
    hashLoop msg len fuel ⟨h, 0, 0, 0⟩ = (loopBody msg len)^[compressions len - 1] ⟨h, 0, 0, 0⟩ := by
  have hbound : passes len 0 ≤ fuel := by
    unfold passes
    omega
  rw [hashLoop_eq_iterate, Nat.min_eq_right hbound, passes_zero]

/-- Settles O48: either bound lets the loop make its N - 1 passes, after which its test fails. -/
theorem loopBoundSuffices : Obligations.LoopBoundSuffices := by
  intro msg len fuel h hfuel
  rw [hashLoop_from_start msg h hfuel, hashLoop_from_start msg h le_rfl, loopBody_iterate_off, loopBody_iterate_b]
  refine ⟨rfl, ?_, Nat.zero_add _⟩
  unfold compressions
  omega

/-- R210: the final chaining value, the loop written as its N - 1 passes. -/
theorem hashWords_eq (d k : Byte) (salt pers msg : Nat → Byte) (len : Nat) :
    hashWords d k salt pers msg len =
      compress ((loopBody msg len)^[compressions len - 1] ⟨h0 (pblk d k salt pers), 0, 0, 0⟩).h
        (block msg len (compressions len - 1)) (BitVec.ofNat 64 len) 0 all1 0 := by
  rw [hashWords, hashLoop_from_start msg _ le_rfl, loopBody_iterate_b, Nat.zero_add]

/-! ## The words of the MIX steps -/

/-- R97, R98: application `n` of the 96 of a block is number `n mod 8` of round `n / 8`. -/
def mixAt (n : Nat) : Instr := .mix (BitVec.ofNat 4 (n / 8)) (BitVec.ofNat 3 n)

/-- The round of application `n` fits the four bits of R. -/
theorem mixRound_toNat {n : Nat} (hn : n < 96) : (BitVec.ofNat 4 (n / 8)).toNat = n / 8 :=
  (BitVec.toNat_ofNat _ _).trans (Nat.mod_eq_of_lt (by omega))

theorem mixAt_wellFormed {n : Nat} (hn : n < 96) : wellFormed (mixAt n) = true :=
  decide_eq_true (by rw [mixRound_toNat hn]; omega)

/-- R97: the word of application `n`. -/
theorem encode_mixAt {n : Nat} (hn : n < 96) : encode (mixAt n) = .sequencer (BitVec.ofNat 11 (0x280 + n)) := by
  refine congrArg Encoded.sequencer (BitVec.eq_of_toNat_eq ?_)
  have hphase : (phaseCode .mix).toNat = 5 := rfl
  rw [seqWord_toNat, mixRound_toNat hn, hphase, BitVec.toNat_ofNat, BitVec.toNat_ofNat]
  omega

/-- R163, R211: after each of the first 95 applications comes the next one. -/
theorem mixSuccessor_at {n : Nat} (hn : n < 95) :
    mixSuccessor (BitVec.ofNat 4 (n / 8)) (BitVec.ofNat 3 n) = BitVec.ofNat 11 (0x280 + n + 1) := by
  apply BitVec.eq_of_toNat_eq
  rw [mixSuccessor_toNat, mixRound_toNat (by omega), BitVec.toNat_ofNat, BitVec.toNat_ofNat]
  split_ifs <;> omega

/-! ## The transition table -/

/-- R211: CHECK goes on to LOAD, whatever its test says. -/
theorem exec_check_seq {s t : State} (h : exec .check s = .next t) : t.seq = 0x180#11 := by
  cases h
  cases moreBlocks s <;> rfl

theorem exec_fold_seq {s t : State} (h : exec .fold s = .next t) :
    t.seq = if s.final then 0x400#11 else 0x380#11 := by
  cases h
  rfl

theorem exec_mix_seq {r : BitVec 4} {i : BitVec 3} {s t : State} (h : exec (.mix r i) s = .next t) :
    t.seq = mixSuccessor r i := by
  obtain ⟨-, rfl⟩ := exec_mix_next h
  rfl

/-- The two states differ in the configuration, the flags CFG, ERR and OVR and the error registers at most: what the
commands other than HASH write (R251 to R257, R290). -/
def SameOutsideCommand (s t : State) : Prop :=
  t = { s with
    dlen := t.dlen, klen := t.klen, salt0 := t.salt0, salt1 := t.salt1, pers0 := t.pers0, pers1 := t.pers1
    cfg := t.cfg, err := t.err, ovr := t.ovr, errcode := t.errcode, errinfo := t.errinfo }

/-- R96: a command keeps to these registers when what it performs does. -/
theorem commandGate_frame {w : BitVec 32} {n : Bool} {f : State → State} {s : State}
    (hf : SameOutsideCommand s (f s)) : SameOutsideCommand s (commandGate w n f s) := by
  obtain ⟨-, h⟩ | ⟨-, -, h⟩ | ⟨-, -, -, -, h⟩ | ⟨-, -, -, h⟩ := commandGate_cases w n f s <;> rw [h]
  · rfl
  · rfl
  · rfl
  · exact hf

theorem illegalCommand_frame (w : BitVec 32) (s : State) : SameOutsideCommand s (illegalCommand w s) :=
  commandGate_frame (f := raise .illegalCommand w) rfl

theorem performInit_frame (d k : BitVec 8) (s : State) : SameOutsideCommand s (performInit d k s) := by
  unfold performInit
  split_ifs <;> rfl

theorem performSetDlen_frame (n : BitVec 8) (s : State) : SameOutsideCommand s (performSetDlen n s) := by
  unfold performSetDlen
  split_ifs <;> rfl

/-- R259: the frame of every command but HASH. -/
theorem exec_command_frame {i : Instr} {s t : State} (hi : isCommand i = true) (hhash : i ≠ .hash)
    (h : exec i s = .next t) : SameOutsideCommand s t := by
  cases i with
  | init d k => cases h; exact commandGate_frame (performInit_frame d k s)
  | setDlen n => cases h; exact commandGate_frame (performSetDlen_frame n s)
  | setSalt | setPers => cases h; exact commandGate_frame rfl
  | hash => exact absurd rfl hhash
  | clrErr => cases h; cases s.busy <;> rfl
  | idle | start | check | load | vinit | mix | fold | next | out => cases hi

theorem seq_of_sameOutsideCommand {s t : State} (h : SameOutsideCommand s t) : t.seq = s.seq := by
  rw [h]

/-- R256: HASH moves SEQ only when it is accepted, and then to START. -/
theorem exec_hash_seq {s t : State} (h : exec .hash s = .next t) (hmoved : t.seq ≠ s.seq) :
    Accepting s ∧ s.cfg = true ∧ t.seq = seqWord .start 0 0 := by
  cases h
  obtain ⟨-, h⟩ | ⟨-, -, h⟩ | ⟨-, -, -, -, h⟩ | ⟨hb, he, hc, h⟩ := commandGate_cases _ true performHash s <;>
    rw [h] at hmoved ⊢
  · exact absurd (discardBusy_seq s) hmoved
  · exact absurd rfl hmoved
  · exact absurd (raise_seq _ _ s) hmoved
  · exact ⟨⟨hb, he⟩, hc rfl, performHash_seq s⟩

/-- R92, R258: no write to another register than CMD writes SEQ. -/
theorem writeRegister_seq (reg : Nat) (v : BitVec 64) (s : State) : (writeRegister reg v s).seq = s.seq := by
  cases hb : s.busy with
  | true => rw [writeRegister_busy reg v hb, discardBusy_seq]
  | false =>
    obtain ⟨a, b, c, d, l, h⟩ := writeRegister_frame reg v hb
    rw [h]

/-- R94: the only word of HASH. -/
theorem hash_word {w : BitVec 32} (h : decodeCommand w = .ok .hash) : w = 0x00000005#32 :=
  (Encoded.command.inj (encode_of_decodeCommand h)).symm

/-- R211, R259: of the host's turns only an accepted HASH moves SEQ, Reset apart. -/
theorem hostTurn_seq {s t : State} (hturn : nextTurn s ≠ .engine) (hreset : nextTurn s ≠ .reset)
    (h : step s = .next t) (hmoved : t.seq ≠ s.seq) :
    Accepting s ∧ s.cfg = true ∧ WritesCommand s 0x00000005#32 ∧ t.seq = 0x080#11 := by
  obtain ⟨i, he, -, -⟩ | ⟨w, i, hw, hd, hx⟩ | ⟨w, e, -, -, rfl⟩ | ⟨reg, v, -, -, -, rfl⟩ | ⟨reg, -, rfl⟩ |
    ⟨a, b, -, rfl⟩ | ⟨hr, -⟩ := step_cases h
  · exact absurd he hturn
  · by_cases hhash : i = .hash
    · subst hhash
      obtain ⟨haccepting, hcfg, hstart⟩ := exec_hash_seq hx hmoved
      exact ⟨haccepting, hcfg, hash_word hd ▸ hw, hstart⟩
    · exact absurd (seq_of_sameOutsideCommand (exec_command_frame (isCommand_of_decodeCommand hd) hhash hx)) hmoved
  · exact absurd (seq_of_sameOutsideCommand (illegalCommand_frame w (afterTurn s))) hmoved
  · exact absurd (writeRegister_seq reg v (afterTurn s)) hmoved
  · exact absurd rfl hmoved
  · exact absurd rfl hmoved
  · exact absurd hr hreset

/-- Settles O58: each row of the table is the step its word decodes to; the other turns have their own lemma. -/
theorem sequencerFollowsTheTable : Obligations.SequencerFollowsTheTable := by
  refine ⟨fun s t hturn h => ?_, fun s t hturn hreset h hmoved => hostTurn_seq hturn hreset h hmoved⟩
  have hexec : ∀ {w} (i : Instr), wellFormed i = true → encode i = .sequencer w → s.seq = w →
      exec i (afterTurn s) = .next t := fun i hwf hi hw => (step_of_encode hturn hwf (hw ▸ hi)).symm.trans h
  refine ⟨fun hw => ?_, fun hw => ?_, fun hw => ?_, fun hw => ?_, fun hw => ?_, fun n hn hw => ?_, fun hw => ?_,
    fun hw hfinal => ?_, fun hw hfinal => ?_, fun hw => ?_, fun hw => ?_⟩
  · cases hexec .idle rfl rfl hw; exact hw
  · cases hexec .start rfl rfl hw; rfl
  · exact exec_check_seq (hexec .check rfl rfl hw)
  · cases hexec .load rfl rfl hw; rfl
  · cases hexec .vinit rfl rfl hw; rfl
  · rw [exec_mix_seq (hexec (mixAt n) (mixAt_wellFormed (by omega)) (encode_mixAt (by omega)) hw), mixSuccessor_at hn]
  · exact exec_mix_seq (hexec (.mix 11 7) rfl rfl hw)
  · rw [exec_fold_seq (hexec .fold rfl rfl hw), afterTurn_final, hfinal]; rfl
  · rw [exec_fold_seq (hexec .fold rfl rfl hw), afterTurn_final, hfinal]; rfl
  · cases hexec .next rfl rfl hw; rfl
  · cases hexec .out rfl rfl hw; rfl

/-! ## Runs of a busy engine -/

/-- `n` steps lead from `s` to `t`, and the engine is busy before each of them (R226). -/
def BusyFor (n : Nat) (s t : State) : Prop :=
  stepN n s = .next t ∧ ∀ k, k < n → ∃ u, stepN k s = .next u ∧ u.busy = true

theorem BusyFor.refl (s : State) : BusyFor 0 s s :=
  ⟨rfl, fun _ hk => absurd hk (Nat.not_lt_zero _)⟩

theorem BusyFor.trans {a b : Nat} {s t u : State} (hst : BusyFor a s t) (htu : BusyFor b t u) :
    BusyFor (a + b) s u := by
  obtain ⟨hst, hbusy⟩ := hst
  obtain ⟨htu, hbusy'⟩ := htu
  refine ⟨(stepN_add hst).trans htu, fun k hk => ?_⟩
  by_cases hka : k < a
  · exact hbusy k hka
  · obtain ⟨j, rfl⟩ := Nat.exists_eq_add_of_le (Nat.le_of_not_lt hka)
    rw [stepN_add hst]
    exact hbusy' j (by omega)

/-- A hash call in progress that no host turn is to disturb and no host store has raced with. -/
structure Undisturbed (s : State) : Prop where
  busy : s.busy = true
  agenda : s.agenda = []
  quiet : s.overwritten = []

/-- R211: one step of an undisturbed call. -/
theorem Undisturbed.runs {s t : State} (hs : Undisturbed s) (i : Instr) (hwf : wellFormed i = true)
    (hi : encode i = .sequencer s.seq) (hx : exec i s = .next t) : BusyFor 1 s t := by
  have hafter : afterTurn s = s := by
    rw [afterTurn, hs.agenda, List.tail_nil, ← hs.agenda]
  have hturn : nextTurn s = .engine := by
    rw [nextTurn, hs.agenda, List.headD_nil]
  have hstep : step s = .next t := by
    rw [step_of_encode hturn hwf hi, hafter, hx]
  refine ⟨by rw [stepN_succ, hstep]; rfl, fun k hk => ?_⟩
  obtain rfl : k = 0 := by omega
  exact ⟨s, rfl, hs.busy⟩

/-- The sequencer steps other than OUT keep a call undisturbed. -/
theorem Undisturbed.of_frame {s t : State} (hs : Undisturbed s) (h : SameOutsideCall s t) : Undisturbed t := by
  rw [h]
  exact ⟨hs.busy, hs.agenda, hs.quiet⟩

/-- No step of the call writes LEN or the message. -/
theorem message_of_sameOutsideCall {s t : State} (h : SameOutsideCall s t) : t.len = s.len ∧ t.mem = s.mem := by
  rw [h]
  exact ⟨rfl, rfl⟩

theorem sameOutsideCall_trans {s t u : State} (hst : SameOutsideCall s t) (htu : SameOutsideCall t u) :
    SameOutsideCall s u := by
  rw [SameOutsideCall, htu, hst]

/-! ## One compression -/

/-- R190, R98: the working state after the first `n` of the 96 applications of a block. -/
def applications (m v : Vector Word 16) : Nat → Vector Word 16
  | 0 => v
  | n + 1 => gStep m (Fin.ofNat 12 (n / 8)) (Fin.ofNat 8 n) (applications m v n)

/-- R190: the 96 applications are the twelve rounds. -/
theorem applications_all (m v : Vector Word 16) : applications m v 96 = rounds m v := rfl

/-- The state in which `n` applications of a block are done on the working state `v`, SEQ at the next one. -/
def mixing (s : State) (v : Vector Word 16) (n : Nat) : State :=
  { s with v := applications s.m v n, seq := BitVec.ofNat 11 (0x280 + n) }

theorem mixing_undisturbed {s : State} (hs : Undisturbed s) (v : Vector Word 16) (n : Nat) :
    Undisturbed (mixing s v n) := ⟨hs.busy, hs.agenda, hs.quiet⟩

/-- R163: application `n`, and where SEQ goes. -/
theorem exec_mixAt {n : Nat} (hn : n < 96) (s : State) (v : Vector Word 16) :
    exec (mixAt n) (mixing s v n) = .next { s with
      v := applications s.m v (n + 1), seq := mixSuccessor (BitVec.ofNat 4 (n / 8)) (BitVec.ofNat 3 n) } := by
  have hr : (BitVec.ofNat 4 (n / 8)).toNat < 12 := by
    rw [mixRound_toNat hn]
    omega
  have hround : (⟨_, hr⟩ : Fin 12) = Fin.ofNat 12 (n / 8) := Fin.ext (by simp; omega)
  have happlication : (BitVec.ofNat 3 n).toFin = Fin.ofNat 8 n := rfl
  rw [mixAt, exec_mix _ _ _ hr, hround, happlication]
  rfl

/-- R163: the first 95 applications of a block take one step each. -/
theorem mixing_run {s : State} (hs : Undisturbed s) (v : Vector Word 16) {n : Nat} (hn : n < 96) :
    BusyFor n (mixing s v 0) (mixing s v n) := by
  induction n with
  | zero => exact .refl _
  | succ n ih =>
    have hx := exec_mixAt (by omega : n < 96) s v
    rw [mixSuccessor_at (by omega)] at hx
    exact (ih (by omega)).trans
      ((mixing_undisturbed hs v n).runs (mixAt n) (mixAt_wellFormed (by omega)) (encode_mixAt (by omega)) hx)

/-- The state in which the twelve rounds of a block are done on the working state `v`. -/
def mixed (s : State) (v : Vector Word 16) : State :=
  { s with v := rounds s.m v, seq := seqWord .fold 0 0 }

/-- R190, R211: the 96 MIX steps of a block compute the twelve rounds. -/
theorem rounds_run {s : State} (hs : Undisturbed s) (v : Vector Word 16) : BusyFor 96 (mixing s v 0) (mixed s v) := by
  have hlast : exec (mixAt 95) (mixing s v 95) = .next (mixed s v) := by
    rw [exec_mixAt (by decide), applications_all]
    rfl
  exact (mixing_run hs v (by decide)).trans ((mixing_undisturbed hs v 95).runs (mixAt 95) rfl rfl hlast)

/-- The state after LOAD in a call no host store raced with (R144). -/
def loaded (s : State) : State :=
  { s with m := block s.mem.read s.len.toNat s.blk.toNat, seq := seqWord .vinit 0 0 }

/-- R144: with no racing store LOAD reads the message space. -/
theorem exec_load_quiet {s : State} (hquiet : s.overwritten = []) : exec .load s = .next (loaded s) := by
  have hbytes : engineByte s = s.mem.read := funext fun a => engineByte_quiet s a hquiet
  rw [exec, execLoad, hbytes, loaded]

/-- R190, R211: what LOAD to FOLD make of a state: H is compressed with block BLK of the message. -/
def compressed (s : State) : State :=
  let m := block s.mem.read s.len.toNat s.blk.toNat
  { s with
    m := m
    v := rounds m (vinit s.h s.t0 s.t1 s.f0 s.f1)
    h := compress s.h m s.t0 s.t1 s.f0 s.f1
    seq := if s.final then seqWord .out 0 0 else seqWord .next 0 0 }

/-- R190, R193: FOLD after the twelve rounds ends the compression. -/
theorem exec_fold_mixed (s : State) :
    exec .fold (mixed (loaded s) (vinit s.h s.t0 s.t1 s.f0 s.f1)) = .next (compressed s) := by
  unfold mixed loaded compressed compress
  rfl

/-- R211: LOAD, VINIT, 96 MIX steps and FOLD compute one compression. -/
theorem compression_run {s : State} (hs : Undisturbed s) (hseq : s.seq = seqWord .load 0 0) :
    BusyFor 99 s (compressed s) := by
  have hloaded : Undisturbed (loaded s) := hs.of_frame rfl
  have hmixed : Undisturbed (mixed (loaded s) (vinit s.h s.t0 s.t1 s.f0 s.f1)) := hs.of_frame rfl
  have hload : BusyFor 1 s (loaded s) := hs.runs .load rfl (congrArg _ hseq.symm) (exec_load_quiet hs.quiet)
  have hvinit : BusyFor 1 (loaded s) (mixing (loaded s) (vinit s.h s.t0 s.t1 s.f0 s.f1) 0) :=
    hloaded.runs .vinit rfl rfl rfl
  have hfold : BusyFor 1 (mixed (loaded s) (vinit s.h s.t0 s.t1 s.f0 s.f1)) (compressed s) :=
    hmixed.runs .fold rfl rfl (exec_fold_mixed s)
  exact ((hload.trans hvinit).trans (rounds_run hloaded _)).trans hfold

/-! ## The passes of a call -/

/-- The registers that hold the variables of HASHF's loop (R210). -/
def loopVars (s : State) : LoopVars where
  h := s.h
  t0 := s.t0
  b := s.blk.toNat
  off := s.offset.toNat

/-- The call is at the loop test, T1 and the flags 0, OFFSET at the start of block BLK. -/
structure AtCheck (s : State) : Prop where
  seq : s.seq = seqWord .check 0 0
  t1 : s.t1 = 0#64
  f0 : s.f0 = 0#64
  f1 : s.f1 = 0#64
  aligned : s.offset.toNat = 128 * s.blk.toNat

/-- The state after START (R213). -/
def started (s : State) : State :=
  { s with
    h := h0 (pbView s), t0 := 0, t1 := 0, f0 := 0, f1 := 0, offset := 0, blk := 0, seq := seqWord .check 0 0 }

theorem started_atCheck (s : State) : AtCheck (started s) := ⟨rfl, rfl, rfl, rfl, rfl⟩

/-- The state after CHECK before a block that is not the last (R215). -/
def checkedMore (s : State) : State :=
  { s with t0 := s.t0 + 128#64, final := false, seq := seqWord .load 0 0 }

/-- R211, R215: a block that is not the last takes 101 steps, which are one pass of HASHF's loop. -/
theorem pass_run {s : State} (hs : Undisturbed s) (hcheck : AtCheck s) (hmore : s.offset.toNat + 128 < s.len.toNat) :
    ∃ t, BusyFor 101 s t ∧ SameOutsideCall s t ∧ AtCheck t ∧
      loopVars t = loopBody s.mem.read s.len.toNat (loopVars s) := by
  obtain ⟨hseq, ht1, hf0, hf1, haligned⟩ := hcheck
  have hchecked : Undisturbed (checkedMore s) := hs.of_frame rfl
  have hcompressed : Undisturbed (compressed (checkedMore s)) := hs.of_frame rfl
  have hcheck : BusyFor 1 s (checkedMore s) :=
    hs.runs .check rfl (congrArg _ hseq.symm) ((checkSelectsTheBlock s).1 hmore)
  have hblk : (s.blk + 1).toNat = s.blk.toNat + 1 := by bv_omega
  have hoffset : (s.offset + 128).toNat = s.offset.toNat + 128 := by bv_omega
  refine ⟨_, (hcheck.trans (compression_run hchecked rfl)).trans (hcompressed.runs .next rfl rfl rfl), rfl,
    ⟨rfl, ht1, hf0, hf1, ?_⟩, ?_⟩
  · change (s.offset + 128).toNat = 128 * (s.blk + 1).toNat
    omega
  · simp only [loopVars, loopBody, compressed, checkedMore, ht1, hf0, hf1, hblk, hoffset]
    rfl

/-- R214, R211: the last block takes 100 steps from the loop test to OUT. -/
theorem lastBlock_run {s : State} (hs : Undisturbed s) (hcheck : AtCheck s)
    (hlast : s.len.toNat ≤ s.offset.toNat + 128) :
    ∃ t, BusyFor 100 s t ∧ SameOutsideCall s t ∧ t.seq = seqWord .out 0 0 ∧
      t.h = compress s.h (block s.mem.read s.len.toNat s.blk.toNat) s.len 0 all1 0 := by
  refine ⟨_, (hs.runs .check rfl (congrArg _ hcheck.seq.symm) ((checkSelectsTheBlock s).2 hlast)).trans
    (compression_run (hs.of_frame rfl) rfl), rfl, rfl, ?_⟩
  simp [compressed, hcheck.t1, all1]

/-- R226: as long as blocks remain, `n` passes of HASHF's loop take 101 steps each. -/
theorem passes_run {s : State} (hs : Undisturbed s) (hcheck : AtCheck s) {n : Nat}
    (hn : n ≤ passes s.len.toNat s.offset.toNat) :
    ∃ t, BusyFor (101 * n) s t ∧ SameOutsideCall s t ∧ AtCheck t ∧
      loopVars t = (loopBody s.mem.read s.len.toNat)^[n] (loopVars s) := by
  induction n with
  | zero => exact ⟨s, .refl s, rfl, hcheck, rfl⟩
  | succ n ih =>
    obtain ⟨t, hrun, hframe, htcheck, hvars⟩ := ih (by omega)
    have hoffset : t.offset.toNat = s.offset.toNat + 128 * n :=
      (congrArg LoopVars.off hvars).trans (loopBody_iterate_off _ _ _ _)
    obtain ⟨hlen, hmem⟩ := message_of_sameOutsideCall hframe
    have hmore : t.offset.toNat + 128 < t.len.toNat := by
      rw [hoffset, hlen]
      unfold passes at hn
      omega
    obtain ⟨u, hrun', hframe', hucheck, hvars'⟩ := pass_run (hs.of_frame hframe) htcheck hmore
    refine ⟨u, hrun.trans hrun', sameOutsideCall_trans hframe hframe', hucheck, ?_⟩
    rw [hvars', hvars, hlen, hmem, Function.iterate_succ_apply']

/-- R226, R227: 101 N steps after HASH was accepted the call is at OUT, with HASHF's final chaining value in H. -/
theorem call_reaches_out {s : State} (h : HashAccepted s) :
    ∃ t, BusyFor (101 * compressions s.len.toNat) s t ∧ SameOutsideCall s t ∧ t.seq = seqWord .out 0 0 ∧
      t.h = hashWords s.dlen s.klen (byteOfPair s.salt0 s.salt1) (byteOfPair s.pers0 s.pers1) s.mem.read
        s.len.toNat := by
  obtain ⟨hseq, hbusy, hagenda, hquiet⟩ := h
  have hs : Undisturbed s := ⟨hbusy, hagenda, hquiet⟩
  have hstart : BusyFor 1 s (started s) := hs.runs .start rfl (congrArg _ hseq.symm) rfl
  have hstarted : Undisturbed (started s) := hs.of_frame rfl
  obtain ⟨t, hpasses, hframe, hcheck, hvars⟩ :=
    passes_run hstarted (started_atCheck s) (passes_zero s.len.toNat).ge
  have hoffset : t.offset.toNat = 0 + 128 * (compressions s.len.toNat - 1) :=
    (congrArg LoopVars.off hvars).trans (loopBody_iterate_off _ _ _ _)
  have hblk : t.blk.toNat = 0 + (compressions s.len.toNat - 1) :=
    (congrArg LoopVars.b hvars).trans (loopBody_iterate_b _ _ _ _)
  obtain ⟨hlen, hmem⟩ : t.len = s.len ∧ t.mem = s.mem := message_of_sameOutsideCall hframe
  have hlast : t.len.toNat ≤ t.offset.toNat + 128 := by
    rw [hoffset, hlen]
    unfold compressions
    omega
  obtain ⟨u, hlastRun, hframe', hout, hwords⟩ := lastBlock_run (hstarted.of_frame hframe) hcheck hlast
  have hsteps : 1 + 101 * (compressions s.len.toNat - 1) + 100 = 101 * compressions s.len.toNat := by
    unfold compressions
    omega
  refine ⟨u, hsteps ▸ (hstart.trans hpasses).trans hlastRun,
    sameOutsideCall_trans (t := started s) rfl (sameOutsideCall_trans hframe hframe'), hout, ?_⟩
  rw [hwords, hashWords_eq, hlen, hmem, hblk, Nat.zero_add, BitVec.ofNat_toNat, BitVec.setWidth_eq]
  exact congrArg (compress · _ _ _ _ _) (congrArg LoopVars.h hvars)

/-- Settles O52: START, N - 1 passes of HASHF's loop and the last block lead to OUT, which ends the call. -/
theorem hashCallComputesHashf : Obligations.HashCallComputesHashf := by
  intro s h
  obtain ⟨t, hrun, hframe, hout, hwords⟩ := call_reaches_out h
  obtain ⟨-, hbusy, hagenda, hquiet⟩ := h
  have ht : Undisturbed t := Undisturbed.of_frame ⟨hbusy, hagenda, hquiet⟩ hframe
  obtain ⟨hsteps, hallBusy⟩ := hrun.trans (ht.runs .out rfl (congrArg _ hout.symm) (exec_out_quiet ht.quiet))
  refine ⟨hallBusy, _, hsteps, rfl, rfl, rfl, ?_, congrArg digestBytes hwords, ?_, ?_⟩
  · change t.dlen = s.dlen
    rw [hframe]
  · change SameConfiguration t s
    rw [hframe]
    simp [SameConfiguration]
  · change t.mem = s.mem
    rw [hframe]

end Sys2Proof.Proofs.DriverRules


/-! PROOFS of the host command family (46_host_commands.md): the digest of equal calls, what an accepted command does,
what each command leaves alone, and the host's writes; the obligations among them. -/

namespace Sys2Proof.Proofs.HostCommandRules

open Sys2Proof.Machine Sys2Proof.Laws Sys2Proof.Proofs.StateRules Sys2Proof.Proofs.MemoryRules
open Sys2Proof.Proofs.EncodingRules Sys2Proof.Proofs.DriverRules

/-! ## Equal calls -/

/-- R210, R141: a pass of HASHF's loop depends on the message bytes below LEN only. -/
theorem loopBody_congr {msg msg' : Nat → Byte} {len : Nat} (h : ∀ a, a < len → msg a = msg' a) :
    loopBody msg len = loopBody msg' len :=
  funext fun x => by rw [loopBody, loopBody, block_congr msg msg' len x.b h]

/-- R210, R141: HASHF depends on the message bytes below LEN only. -/
theorem hashf_congr (d k : Byte) (salt pers : Nat → Byte) {msg msg' : Nat → Byte} {len : Nat}
    (h : ∀ a, a < len → msg a = msg' a) : hashf d k salt pers msg len = hashf d k salt pers msg' len := by
  rw [hashf, hashf, hashWords_eq, hashWords_eq, loopBody_congr h, block_congr msg msg' len _ h]

/-- Settles O53: each call delivers HASHF of its configuration and message, which sees no byte beyond LEN. -/
theorem equalCallsGiveEqualDigests : Obligations.EqualCallsGiveEqualDigests := by
  intro s s' h h' hdlen hklen hsalt0 hsalt1 hpers0 hpers1 hlen hbytes
  obtain ⟨-, t, hrun, -, -, -, houtLen, hdigest, -, -⟩ := hashCallComputesHashf s h
  obtain ⟨-, t', hrun', -, -, -, houtLen', hdigest', -, -⟩ := hashCallComputesHashf s' h'
  rw [← hlen] at hrun' hdigest'
  refine ⟨t, t', hrun, hrun', ?_, by rw [houtLen, houtLen', hdlen]⟩
  rw [hdigest, hdigest', hdlen, hklen, hsalt0, hsalt1, hpers0, hpers1]
  exact hashf_congr _ _ _ _ hbytes

/-! ## Accepted commands -/

/-- R96: a command in an accepting engine, configured where the command asks for it, is performed. -/
theorem commandGate_accepting (w : BitVec 32) {n : Bool} (f : State → State) {s : State} (h : Accepting s)
    (hc : n = true → s.cfg = true) : commandGate w n f s = f s := by
  obtain ⟨hb, he⟩ := h
  cases n with
  | false => simp [commandGate, hb, he]
  | true => simp [commandGate, hb, he, hc rfl]

/-- R34: the length test refuses 0 and everything above 64. -/
theorem digestLengthOk_eq_false {d : BitVec 8} (h : d.toNat < 1 ∨ 64 < d.toNat) : digestLengthOk d = false :=
  Bool.eq_false_iff.mpr fun hok => by
    rw [digestLengthOk_iff] at hok
    omega

theorem performInit_digestLengthRange {d : BitVec 8} (k : BitVec 8) (s : State) (hd : digestLengthOk d = false) :
    performInit d k s = raise .digestLengthRange (initWord d k) s := by
  simp [performInit, hd]

theorem performInit_keyLengthRange {d k : BitVec 8} (s : State) (hd : digestLengthOk d = true)
    (hk : keyLengthOk k = false) : performInit d k s = raise .keyLengthRange (initWord d k) s := by
  simp [performInit, hd, hk]

theorem performInit_keyedUnsupported {d k : BitVec 8} {s : State} (hd : digestLengthOk d = true)
    (hk : keyLengthOk k = true) (hr : keyRefused k s.keyPolicy = true) :
    performInit d k s = raise .keyedUnsupported (initWord d k) s := by
  simp [performInit, hd, hk, hr]

theorem performInit_stores {d k : BitVec 8} {s : State} (hd : digestLengthOk d = true) (hk : keyLengthOk k = true)
    (hr : keyRefused k s.keyPolicy = false) :
    performInit d k s = { s with
      dlen := d, klen := k, salt0 := s.saltIn0, salt1 := s.saltIn1, pers0 := s.persIn0, pers1 := s.persIn1
      cfg := true } := by
  simp [performInit, hd, hk, hr]

/-- Settles O23: an accepted INIT is performed, and each clause is one outcome of its three tests. -/
theorem initChecksThenStores : Obligations.InitChecksThenStores := by
  intro d k s h
  have hexec : exec (.init d k) s = .next (performInit d k s) :=
    congrArg Host.Outcome.next (commandGate_accepting _ _ h nofun)
  refine ⟨initWord d k, rfl, commandWord_toNat k d 1, fun hd => ?_, fun hd1 hd64 hk => ?_,
    fun hd1 hd64 hk1 hk64 hp => ?_, fun hd1 hd64 hk64 hkey => ?_⟩
  · rw [hexec, performInit_digestLengthRange k s (digestLengthOk_eq_false hd)]
    rfl
  · have hk' : keyLengthOk k = false := Bool.eq_false_iff.mpr fun hok => by
      rw [keyLengthOk_iff] at hok
      omega
    rw [hexec, performInit_keyLengthRange s ((digestLengthOk_iff d).mpr ⟨hd1, hd64⟩) hk']
    rfl
  · rw [hexec, performInit_keyedUnsupported ((digestLengthOk_iff d).mpr ⟨hd1, hd64⟩) ((keyLengthOk_iff k).mpr hk64)
      ((keyRefused_iff k _).mpr ⟨hk1, hp⟩)]
    rfl
  · have hr : keyRefused k s.keyPolicy = false := by
      rcases hkey with rfl | hp
      · rfl
      · simp [keyRefused, hp]
    rw [hexec, performInit_stores ((digestLengthOk_iff d).mpr ⟨hd1, hd64⟩) ((keyLengthOk_iff k).mpr hk64) hr]

theorem performSetDlen_digestLengthRange {n : BitVec 8} (s : State) (hn : digestLengthOk n = false) :
    performSetDlen n s = raise .digestLengthRange (setDlenWord n) s := by
  simp [performSetDlen, hn]

theorem performSetDlen_stores {n : BitVec 8} (s : State) (hn : digestLengthOk n = true) :
    performSetDlen n s = { s with dlen := n } := by
  simp [performSetDlen, hn]

/-- Settles O24: an accepted SET_DLEN is performed, and each clause is one outcome of its test. -/
theorem setDlenChecksThenStores : Obligations.SetDlenChecksThenStores := by
  intro n s h hc
  have hexec : exec (.setDlen n) s = .next (performSetDlen n s) :=
    congrArg Host.Outcome.next (commandGate_accepting _ _ h fun _ => hc)
  refine ⟨setDlenWord n, rfl, commandWord_toNat 0 n 2, fun hn => ?_, fun hn1 hn64 => ?_⟩
  · rw [hexec, performSetDlen_digestLengthRange s (digestLengthOk_eq_false hn)]
    rfl
  · rw [hexec, performSetDlen_stores s ((digestLengthOk_iff n).mpr ⟨hn1, hn64⟩)]

/-- Settles O25: an accepted SET_SALT is performed. -/
theorem setSaltTakesStagedSalt : Obligations.SetSaltTakesStagedSalt :=
  ⟨rfl, fun _ h hc => congrArg Host.Outcome.next (commandGate_accepting _ performSetSalt h fun _ => hc)⟩

/-- Settles O26: an accepted SET_PERS is performed. -/
theorem setPersTakesStagedPersonalization : Obligations.SetPersTakesStagedPersonalization :=
  ⟨rfl, fun _ h hc => congrArg Host.Outcome.next (commandGate_accepting _ performSetPers h fun _ => hc)⟩

/-- Settles O27: an accepted HASH is performed, and START's word is 0x080. -/
theorem hashStartsTheCall : Obligations.HashStartsTheCall :=
  ⟨rfl, fun _ h hc => congrArg Host.Outcome.next (commandGate_accepting _ performHash h fun _ => hc)⟩

/-! ## The error state -/

/-- R96 (case 2): with BUSY = 0 and ERR = 1 the gate discards the command word. -/
theorem commandGate_err (w : BitVec 32) (n : Bool) (f : State → State) {s : State} (hb : s.busy = false)
    (he : s.err = true) : commandGate w n f s = s := by
  simp [commandGate, hb, he]

/-- R257: CLR_ERR with BUSY = 0 is performed. -/
theorem exec_clrErr_idle {s : State} (hb : s.busy = false) : exec .clrErr s = .next (clearError s) :=
  congrArg Host.Outcome.next (if_neg (Bool.eq_false_iff.mp hb))

/-- R292: every other command presented while ERR = 1 and BUSY = 0 is discarded. -/
theorem exec_command_err {i : Instr} {s : State} (hi : isCommand i = true) (hclr : i ≠ .clrErr) (hb : s.busy = false)
    (he : s.err = true) : exec i s = .next s := by
  cases i with
  | init | setDlen | setSalt | setPers | hash => exact congrArg Host.Outcome.next (commandGate_err _ _ _ hb he)
  | clrErr => exact absurd rfl hclr
  | idle | start | check | load | vinit | mix | fold | next | out => cases hi

/-- Settles O28: CLR_ERR asks for BUSY = 0 only, and ERR = 1 keeps the other commands out. -/
theorem clrErrLeavesTheErrorState : Obligations.ClrErrLeavesTheErrorState :=
  ⟨rfl, fun _ hb => exec_clrErr_idle hb, fun _ _ hi hclr hb he => exec_command_err hi hclr hb he⟩

/-- What a command other than CLR_ERR can do to the flags: it is discarded with OVR set, it raises an error, or it
leaves ERR and OVR alone (R96, R290). -/
def FlagOutcome (s t : State) : Prop :=
  t = discardBusy s ∨ (∃ e w, t = raise e w s) ∨ (t.err = s.err ∧ t.ovr = s.ovr)

theorem commandGate_flagOutcome {w : BitVec 32} {n : Bool} {f : State → State} {s : State}
    (hf : FlagOutcome s (f s)) : FlagOutcome s (commandGate w n f s) := by
  obtain ⟨-, h⟩ | ⟨-, -, h⟩ | ⟨-, -, -, -, h⟩ | ⟨-, -, -, h⟩ := commandGate_cases w n f s <;> rw [h]
  · exact .inl rfl
  · exact .inr (.inr ⟨rfl, rfl⟩)
  · exact .inr (.inl ⟨_, _, rfl⟩)
  · exact hf

theorem performInit_flagOutcome (d k : BitVec 8) (s : State) : FlagOutcome s (performInit d k s) := by
  unfold performInit
  split_ifs
  · exact .inr (.inl ⟨_, _, rfl⟩)
  · exact .inr (.inl ⟨_, _, rfl⟩)
  · exact .inr (.inl ⟨_, _, rfl⟩)
  · exact .inr (.inr ⟨rfl, rfl⟩)

theorem performSetDlen_flagOutcome (n : BitVec 8) (s : State) : FlagOutcome s (performSetDlen n s) := by
  unfold performSetDlen
  split_ifs
  · exact .inr (.inl ⟨_, _, rfl⟩)
  · exact .inr (.inr ⟨rfl, rfl⟩)

theorem exec_command_flagOutcome {i : Instr} {s t : State} (hi : isCommand i = true) (hclr : i ≠ .clrErr)
    (h : exec i s = .next t) : FlagOutcome s t := by
  cases i with
  | init d k => cases h; exact commandGate_flagOutcome (performInit_flagOutcome d k s)
  | setDlen n => cases h; exact commandGate_flagOutcome (performSetDlen_flagOutcome n s)
  | setSalt | setPers | hash => cases h; exact commandGate_flagOutcome (.inr (.inr ⟨rfl, rfl⟩))
  | clrErr => exact absurd rfl hclr
  | idle | start | check | load | vinit | mix | fold | next | out => cases hi

theorem illegalCommand_flagOutcome (w : BitVec 32) (s : State) : FlagOutcome s (illegalCommand w s) :=
  commandGate_flagOutcome (.inr (.inl ⟨_, _, rfl⟩))

/-- None of these outcomes clears OVR. -/
theorem FlagOutcome.ovr {s t : State} (h : FlagOutcome s t) (hovr : s.ovr = true) : t.ovr = true := by
  obtain rfl | ⟨e, w, rfl⟩ | ⟨-, hsame⟩ := h
  · exact discardBusy_ovr s
  · rw [raise_ovr, hovr]
  · rw [hsame, hovr]

/-- R290: ERR becomes 1 by the error entry only. -/
theorem FlagOutcome.raises {s t : State} (h : FlagOutcome s t) (hs : s.err = false) (ht : t.err = true) :
    ∃ e w, t = raise e w s := by
  obtain rfl | hraise | ⟨hsame, -⟩ := h
  · rw [discardBusy_err, hs] at ht
    cases ht
  · exact hraise
  · rw [hsame, hs] at ht
    cases ht

/-! ## What a command leaves alone -/

/-- R256, R96: HASH is accepted and starts the call, or keeps to the frame of the other commands. -/
theorem exec_hash_cases {s t : State} (h : exec .hash s = .next t) : t = performHash s ∨ SameOutsideCommand s t := by
  cases h
  obtain ⟨-, h⟩ | ⟨-, -, h⟩ | ⟨-, -, -, -, h⟩ | ⟨-, -, -, h⟩ := commandGate_cases _ true performHash s <;> rw [h]
  · exact .inr rfl
  · exact .inr rfl
  · exact .inr rfl
  · exact .inl rfl

/-- R259: a command starts a call or keeps to the configuration, the flags and the error registers. -/
theorem exec_command_cases {i : Instr} {s t : State} (hi : isCommand i = true) (h : exec i s = .next t) :
    (i = .hash ∧ t = performHash s) ∨ SameOutsideCommand s t := by
  by_cases hhash : i = .hash
  · subst hhash
    exact (exec_hash_cases h).imp_left fun ht => ⟨rfl, ht⟩
  · exact .inr (exec_command_frame hi hhash h)

theorem exec_command_dataRegisters {i : Instr} {s t : State} (hi : isCommand i = true) (h : exec i s = .next t) :
    SameDataRegisters t s := by
  obtain ⟨-, rfl⟩ | hframe := exec_command_cases hi h
  · simp [SameDataRegisters]
  · rw [hframe]
    simp [SameDataRegisters]

/-- R290, R257: a command that turns ERR on is the error entry; CLR_ERR turns it off. -/
theorem exec_command_raises {i : Instr} {s t : State} (hi : isCommand i = true) (h : exec i s = .next t)
    (hs : s.err = false) (ht : t.err = true) : ∃ e w, t = raise e w s := by
  by_cases hclr : i = .clrErr
  · subst hclr
    cases hb : s.busy with
    | true =>
      rw [exec_command_busy hi hb] at h
      cases h
      cases hs.symm.trans ht
    | false =>
      rw [exec_clrErr_idle hb] at h
      cases h
      cases ht
  · exact (exec_command_flagOutcome hi hclr h).raises hs ht

/-- Settles O29: the frames of the commands, of the result and of memory, and the error entry's own registers. -/
theorem commandFrame : Obligations.CommandFrame := by
  intro i s t hi h
  obtain ⟨hdigest, houtLen⟩ := exec_command_result hi h
  refine ⟨exec_command_dataRegisters hi h, fun hhash => ?_, hdigest, houtLen, engineNeverWritesMemory i s t h,
    fun hs ht => ?_⟩
  · rw [exec_command_frame hi hhash h]
    exact ⟨rfl, rfl⟩
  · obtain ⟨e, w, rfl⟩ := exec_command_raises hi h hs ht
    rfl

/-! ## The host's writes -/

/-- The five staging registers of two states are equal (R39). -/
abbrev SameStaging (s t : State) : Prop :=
  t.saltIn0 = s.saltIn0 ∧ t.saltIn1 = s.saltIn1 ∧ t.persIn0 = s.persIn0 ∧ t.persIn1 = s.persIn1 ∧ t.msgLen = s.msgLen

/-- R259: no command writes a staging register. -/
theorem exec_command_staging {i : Instr} {s t : State} (hi : isCommand i = true) (h : exec i s = .next t) :
    SameStaging s t := by
  obtain ⟨-, rfl⟩ | hframe := exec_command_cases hi h
  · exact ⟨rfl, rfl, rfl, rfl, rfl⟩
  · rw [hframe]
    exact ⟨rfl, rfl, rfl, rfl, rfl⟩

/-- R258, R250: no sequencer step, OUT included, writes a staging register or OVR. -/
theorem exec_sequencer_staging_ovr {i : Instr} {s t : State} (hi : isCommand i = false) (h : exec i s = .next t) :
    SameStaging s t ∧ t.ovr = s.ovr := by
  by_cases hout : i = .out
  · subst hout
    cases h
    exact ⟨⟨rfl, rfl, rfl, rfl, rfl⟩, rfl⟩
  · rw [sequencerStep_frame hi hout h]
    exact ⟨⟨rfl, rfl, rfl, rfl, rfl⟩, rfl⟩

/-- Settles O12: a write of 64 bits fits a staging register and is stored; commands and sequencer steps have their
frames. -/
theorem stagingWritesStore : Obligations.StagingWritesStore := by
  refine ⟨fun s v hb => ?_, fun i s t h => ?_⟩
  · have hidle : ¬ (afterTurn s).busy = true := Bool.eq_false_iff.mp hb
    have stores : ∀ {reg t}, reg ≠ 0 → regWidth reg = 64 → writeRegister reg v (afterTurn s) = t →
        nextTurn s = .write reg v → step s = .next t := fun hreg hwidth ht hturn =>
      (step_of_write hturn hreg (by rw [hwidth]; exact v.isLt)).trans (congrArg Host.Outcome.next ht)
    exact ⟨stores (by decide) rfl (if_neg hidle), stores (by decide) rfl (if_neg hidle),
      stores (by decide) rfl (if_neg hidle), stores (by decide) rfl (if_neg hidle),
      stores (by decide) rfl (if_neg hidle)⟩
  · cases hi : isCommand i with
    | true => exact exec_command_staging hi h
    | false => exact (exec_sequencer_staging_ovr hi h).1

/-- R95, R286: a write to CMD of a word that does not decode. -/
theorem step_of_illegalCommand {s : State} {w : BitVec 32} {e : DecodeError} (hturn : WritesCommand s w)
    (hd : decodeCommand w = .error e) : step s = .next (illegalCommand w (afterTurn s)) :=
  step_of_ends (by
    rw [hturn, fetchTurn, fetchWrite_fits 0 _ _ (commandValue_fits w), if_pos rfl,
      BitVec.setWidth_setWidth_of_le w (by decide), BitVec.setWidth_eq, hd])

/-- R250: with BUSY = 1 every HostWrite of a value that fits, to CMD or elsewhere, is discarded. -/
theorem step_of_write_busy {s : State} {reg : Nat} {v : BitVec 64} (hb : s.busy = true)
    (hturn : nextTurn s = .write reg v) (hfits : v.toNat < 2 ^ regWidth reg) :
    step s = .next (discardBusy (afterTurn s)) := by
  have hb' : (afterTurn s).busy = true := hb
  by_cases hreg : reg = 0
  · subst hreg
    obtain ⟨w, rfl⟩ := command_value v hfits
    cases hd : decodeCommand w with
    | ok i => rw [step_of_command hturn hd, exec_command_busy (isCommand_of_decodeCommand hd) hb']
    | error e => rw [step_of_illegalCommand hturn hd, illegalCommand_busy w hb']
  · rw [step_of_write hturn hreg hfits, writeRegister_busy reg v hb']

/-- R92: a read turn hands the register's contents to the host. -/
theorem step_of_read {s : State} {reg : Nat} (hturn : nextTurn s = .read reg) :
    step s = .next (hostRead reg (afterTurn s)) :=
  step_of_ends (by rw [hturn]; rfl)

/-- R94: the only word of CLR_ERR. -/
theorem clrErr_word {w : BitVec 32} (h : decodeCommand w = .ok .clrErr) : w = 0x00000006#32 :=
  (Encoded.command.inj (encode_of_decodeCommand h)).symm

/-- R250: no write to another register than CMD clears OVR. -/
theorem writeRegister_ovr (reg : Nat) (v : BitVec 64) {s : State} (hovr : s.ovr = true) :
    (writeRegister reg v s).ovr = true := by
  cases hb : s.busy with
  | true => rw [writeRegister_busy reg v hb, discardBusy_ovr]
  | false =>
    obtain ⟨a, b, c, d, l, h⟩ := writeRegister_frame reg v hb
    rw [h]
    exact hovr

/-- R250, R257: a command clears OVR only as a CLR_ERR with BUSY = 0. -/
theorem exec_command_ovr {i : Instr} {s t : State} (hi : isCommand i = true) (h : exec i s = .next t)
    (hclr : ¬ (i = .clrErr ∧ s.busy = false)) (hovr : s.ovr = true) : t.ovr = true := by
  cases hb : s.busy with
  | true =>
    rw [exec_command_busy hi hb] at h
    cases h
    exact discardBusy_ovr s
  | false => exact (exec_command_flagOutcome hi (fun hi' => hclr ⟨hi', hb⟩) h).ovr hovr

/-- R250: OVR stays set until CLR_ERR is performed or Reset. -/
theorem step_ovr {s t : State} (hovr : s.ovr = true) (h : step s = .next t) (hreset : nextTurn s ≠ .reset)
    (hclr : ¬ ClearsError s) : t.ovr = true := by
  obtain ⟨i, -, hd, hx⟩ | ⟨w, i, hw, hd, hx⟩ | ⟨w, e, -, -, rfl⟩ | ⟨reg, v, -, -, -, rfl⟩ | ⟨reg, -, rfl⟩ |
    ⟨a, b, -, rfl⟩ | ⟨hr, -⟩ := step_cases h
  · exact (exec_sequencer_staging_ovr (not_isCommand_of_decodeSeq hd) hx).2.trans hovr
  · refine exec_command_ovr (s := afterTurn s) (isCommand_of_decodeCommand hd) hx ?_ hovr
    rintro ⟨rfl, hb⟩
    exact hclr ⟨hb, clrErr_word hd ▸ hw⟩
  · exact (illegalCommand_flagOutcome w (afterTurn s)).ovr hovr
  · exact writeRegister_ovr reg v (s := afterTurn s) hovr
  · exact hovr
  · exact hovr
  · exact absurd hr hreset

/-- Settles O11: the discard of a write, the read, and what each turn does to OVR. -/
theorem hostWritesWhileBusyAreDiscarded : Obligations.HostWritesWhileBusyAreDiscarded :=
  ⟨fun _ _ _ hb hturn hfits => step_of_write_busy hb hturn hfits, fun _ _ hturn => step_of_read hturn,
    fun _ _ hovr h hreset hclr => step_ovr hovr h hreset hclr⟩

end Sys2Proof.Proofs.HostCommandRules

/-! PROOFS of the exception family (60_exceptions.md): how an error is entered, which turns can touch the error registers, how
the first error is kept, and that a sound state has a next state at every turn; the obligations among them. -/

namespace Sys2Proof.Proofs.ExceptionRules

open Sys2Proof.Machine Sys2Proof.Laws Sys2Proof.Proofs.StateRules Sys2Proof.Proofs.MemoryRules
open Sys2Proof.Proofs.EncodingRules Sys2Proof.Proofs.DriverRules Sys2Proof.Proofs.HostCommandRules

/-! ## The error entry -/

/-- R95: a word that matches no row of R94 does not decode. -/
theorem decodeCommand_of_not_legal {w : BitVec 32} (h : ¬ LegalCommandWord w) : ∃ e, decodeCommand w = .error e := by
  cases hd : decodeCommand w with
  | ok i => exact absurd ((legalCommandWordsMatchARow w).mp ⟨i, hd⟩) h
  | error e => exact ⟨e, rfl⟩

/-- R286: an accepting engine raises IllegalCommand for a word that is no command. -/
theorem illegalCommand_accepting (w : BitVec 32) {s : State} (h : Accepting s) :
    illegalCommand w s = raise .illegalCommand w s :=
  commandGate_accepting w _ h nofun

/-- Settles O8: an accepting engine performs what an illegal word asks for, the error entry. -/
theorem illegalWordRaisesIllegalCommand : Obligations.IllegalWordRaisesIllegalCommand := by
  intro s w haccepting hturn hw
  obtain ⟨e, hd⟩ := decodeCommand_of_not_legal hw
  rw [step_of_illegalCommand hturn hd, illegalCommand_accepting (s := afterTurn s) w haccepting]
  rfl

/-- R96 (case 3): an accepting engine with CFG = 0 turns away a command that needs a configuration. -/
theorem commandGate_unconfigured (w : BitVec 32) (f : State → State) {s : State} (h : Accepting s)
    (hc : s.cfg = false) : commandGate w true f s = raise .notConfigured w s := by
  obtain ⟨hb, he⟩ := h
  simp [commandGate, hb, he, hc]

/-- Settles O22: each of the four goes through the gate with its own word and asks for a configuration. -/
theorem unconfiguredCommandsRaiseNotConfigured : Obligations.UnconfiguredCommandsRaiseNotConfigured := by
  intro i w s haccepting hc hw hi
  have hgate : ∀ w f, Host.Outcome.next (commandGate w true f s) = (.next (raise .notConfigured w s) : Result) :=
    fun w f => congrArg Host.Outcome.next (commandGate_unconfigured w f haccepting hc)
  obtain ⟨n, rfl⟩ | rfl | rfl | rfl := hi <;> cases hw
  · exact hgate _ (performSetDlen n)
  · exact hgate _ performSetSalt
  · exact hgate _ performSetPers
  · exact hgate _ performHash

/-- From `s` to `t` an error is entered for the word `w`, with BUSY = 0 (R290). -/
def Enters (w : BitVec 32) (s t : State) : Prop :=
  s.busy = false ∧ ∃ e, t = raise e w s

/-- R96, R290: the gate enters an error for its own word when what it performs does. -/
theorem commandGate_enters {w : BitVec 32} {n : Bool} {f : State → State} {s : State} (hs : s.err = false)
    (hf : (f s).err = true → ∃ e, f s = raise e w s) (ht : (commandGate w n f s).err = true) :
    Enters w s (commandGate w n f s) := by
  obtain ⟨-, h⟩ | ⟨-, he, -⟩ | ⟨hb, -, -, -, h⟩ | ⟨hb, -, -, h⟩ := commandGate_cases w n f s
  · rw [h, discardBusy_err, hs] at ht
    cases ht
  · cases hs.symm.trans he
  · exact ⟨hb, _, h⟩
  · rw [h] at ht ⊢
    exact ⟨hb, hf ht⟩

/-- R251: INIT raises its errors with its own word. -/
theorem performInit_raises {d k : BitVec 8} {s : State} (hs : s.err = false) (h : (performInit d k s).err = true) :
    ∃ e, performInit d k s = raise e (initWord d k) s := by
  unfold performInit at h ⊢
  split_ifs at h ⊢
  · exact ⟨_, rfl⟩
  · exact ⟨_, rfl⟩
  · exact ⟨_, rfl⟩
  · cases hs.symm.trans h

/-- R253: SET_DLEN raises its error with its own word. -/
theorem performSetDlen_raises {n : BitVec 8} {s : State} (hs : s.err = false) (h : (performSetDlen n s).err = true) :
    ∃ e, performSetDlen n s = raise e (setDlenWord n) s := by
  unfold performSetDlen at h ⊢
  split_ifs at h ⊢
  · exact ⟨_, rfl⟩
  · cases hs.symm.trans h

/-- R257: CLR_ERR never turns ERR on. -/
theorem exec_clrErr_err {s t : State} (h : exec .clrErr s = .next t) (hs : s.err = false) : t.err = false := by
  cases hb : s.busy with
  | true =>
    rw [exec_command_busy rfl hb] at h
    cases h
    exact hs
  | false =>
    rw [exec_clrErr_idle hb] at h
    cases h
    rfl

/-- R280, R290: a command that turns ERR on enters an error for its own word. -/
theorem exec_command_enters {i : Instr} {w : BitVec 32} {s t : State} (hw : encode i = .command w)
    (h : exec i s = .next t) (hs : s.err = false) (ht : t.err = true) : Enters w s t := by
  cases i with
  | init d k => cases hw; cases h; exact commandGate_enters hs (performInit_raises hs) ht
  | setDlen n => cases hw; cases h; exact commandGate_enters hs (performSetDlen_raises hs) ht
  | setSalt | setPers | hash => cases hw; cases h; exact commandGate_enters hs (fun he => nomatch hs.symm.trans he) ht
  | clrErr => cases (exec_clrErr_err h hs).symm.trans ht
  | idle | start | check | load | vinit | mix | fold | next | out => cases hw

theorem illegalCommand_enters {w : BitVec 32} {s : State} (hs : s.err = false)
    (ht : (illegalCommand w s).err = true) : Enters w s (illegalCommand w s) :=
  commandGate_enters hs (fun _ => ⟨_, rfl⟩) ht

/-! ## Which turns can touch the error registers -/

/-- ERR, ERRCODE and ERRINFO of two states are equal (R281). -/
abbrev SameError (s t : State) : Prop := t.err = s.err ∧ t.errcode = s.errcode ∧ t.errinfo = s.errinfo

/-- R280: no sequencer step writes the error registers. -/
theorem exec_sequencer_keeps_error {i : Instr} {s t : State} (hi : isCommand i = false) (h : exec i s = .next t) :
    SameError s t := by
  by_cases hout : i = .out
  · subst hout
    cases h
    exact ⟨rfl, rfl, rfl⟩
  · rw [sequencerStep_frame hi hout h]
    exact ⟨rfl, rfl, rfl⟩

/-- R258, R250: no write to another register than CMD writes the error registers. -/
theorem writeRegister_keeps_error (reg : Nat) (v : BitVec 64) (s : State) : SameError s (writeRegister reg v s) := by
  cases hb : s.busy with
  | true =>
    rw [writeRegister_busy reg v hb]
    exact ⟨rfl, rfl, rfl⟩
  | false =>
    obtain ⟨a, b, c, d, l, h⟩ := writeRegister_frame reg v hb
    rw [h]
    exact ⟨rfl, rfl, rfl⟩

/-- R280, R292: a step leaves the error registers alone, or it is a write to CMD or Reset. -/
theorem step_error_cases {s t : State} (h : step s = .next t) :
    SameError s t ∨
    (∃ w i, WritesCommand s w ∧ decodeCommand w = .ok i ∧ exec i (afterTurn s) = .next t) ∨
    (∃ w, WritesCommand s w ∧ t = illegalCommand w (afterTurn s)) ∨
    (nextTurn s = .reset ∧ t = resetAction (afterTurn s)) := by
  obtain ⟨i, -, hd, hx⟩ | hcommand | ⟨w, e, hw, -, ht⟩ | ⟨reg, v, -, -, -, rfl⟩ | ⟨reg, -, rfl⟩ |
    ⟨a, b, -, rfl⟩ | hreset := step_cases h
  · exact .inl (exec_sequencer_keeps_error (s := afterTurn s) (not_isCommand_of_decodeSeq hd) hx)
  · exact .inr (.inl hcommand)
  · exact .inr (.inr (.inl ⟨w, hw, ht⟩))
  · exact .inl (writeRegister_keeps_error reg v (afterTurn s))
  · exact .inl ⟨rfl, rfl, rfl⟩
  · exact .inl ⟨rfl, rfl, rfl⟩
  · exact .inr (.inr (.inr hreset))

/-- Settles O30: of the turns that can touch the error registers, Reset clears ERR and a command word enters an error
for itself. -/
theorem errorEntryIsExact : Obligations.ErrorEntryIsExact := by
  intro s t hs h ht
  have hentry : ∀ {w}, WritesCommand s w → Enters w (afterTurn s) t →
      s.busy = false ∧ ∃ (w : BitVec 32) (e : CommandError), WritesCommand s w ∧
        t = { s with agenda := s.agenda.tail, err := true, errcode := errorCode e, errinfo := w } :=
    fun hw ⟨hb, e, he⟩ => ⟨hb, _, e, hw, he⟩
  obtain ⟨hsame, -, -⟩ | ⟨w, i, hw, hd, hx⟩ | ⟨w, hw, rfl⟩ | ⟨-, rfl⟩ := step_error_cases h
  · cases hs.symm.trans (hsame.symm.trans ht)
  · exact hentry hw (exec_command_enters (s := afterTurn s) (encode_of_decodeCommand hd) hx hs ht)
  · exact hentry hw (illegalCommand_enters (s := afterTurn s) hs ht)
  · cases ht

/-! ## The error state -/

/-- R292: with ERR = 1 and BUSY = 0 a word that is no command is discarded too. -/
theorem illegalCommand_discarded (w : BitVec 32) {s : State} (hb : s.busy = false) (he : s.err = true) :
    illegalCommand w s = s :=
  commandGate_err w false _ hb he

/-- Settles O21: the gate discards every word but that of CLR_ERR, and a staging write stores whatever ERR is. -/
theorem errorStateDiscardsCommands : Obligations.ErrorStateDiscardsCommands := by
  refine ⟨fun s w hb he hturn hw => ?_, fun s reg v hb he h4 h8 hturn => ?_⟩
  · cases hd : decodeCommand w with
    | ok i =>
      have hclr : i ≠ .clrErr := by
        rintro rfl
        exact hw (clrErr_word hd)
      rw [step_of_command hturn hd, exec_command_err (s := afterTurn s) (isCommand_of_decodeCommand hd) hclr hb he]
      rfl
    | error e =>
      rw [step_of_illegalCommand hturn hd, illegalCommand_discarded (s := afterTurn s) w hb he]
      rfl
  · obtain ⟨hsalt0, hsalt1, hpers0, hpers1, hlen⟩ := stagingWritesStore.1 s v hb
    obtain rfl | rfl | rfl | rfl | rfl : reg = 4 ∨ reg = 5 ∨ reg = 6 ∨ reg = 7 ∨ reg = 8 := by omega
    · exact ⟨_, hsalt0 hturn, rfl, he⟩
    · exact ⟨_, hsalt1 hturn, rfl, he⟩
    · exact ⟨_, hpers0 hturn, rfl, he⟩
    · exact ⟨_, hpers1 hturn, rfl, he⟩
    · exact ⟨_, hlen hturn, rfl, he⟩

/-- R292, R293: while ERR = 1 a command keeps the error registers, a performed CLR_ERR apart. -/
theorem exec_command_keeps_error {i : Instr} {s t : State} (hi : isCommand i = true) (h : exec i s = .next t)
    (hclr : ¬ (i = .clrErr ∧ s.busy = false)) (he : s.err = true) : SameError s t := by
  cases hb : s.busy with
  | true =>
    rw [exec_command_busy hi hb] at h
    cases h
    exact ⟨rfl, rfl, rfl⟩
  | false =>
    rw [exec_command_err hi (fun hi' => hclr ⟨hi', hb⟩) hb he] at h
    cases h
    exact ⟨rfl, rfl, rfl⟩

/-- R292, R250: while ERR = 1 a word that is no command keeps the error registers. -/
theorem illegalCommand_keeps_error (w : BitVec 32) {s : State} (he : s.err = true) :
    SameError s (illegalCommand w s) := by
  cases hb : s.busy with
  | true =>
    rw [illegalCommand_busy w hb]
    exact ⟨rfl, rfl, rfl⟩
  | false =>
    rw [illegalCommand_discarded w hb he]
    exact ⟨rfl, rfl, rfl⟩

/-- Settles O57: of the turns that can touch the error registers, Reset and a performed CLR_ERR are excepted and ERR = 1
keeps the others out. -/
theorem firstErrorIsKept : Obligations.FirstErrorIsKept := by
  intro s t he h hreset hclr
  have hsame : SameError s t := by
    obtain hsame | ⟨w, i, hw, hd, hx⟩ | ⟨w, -, rfl⟩ | ⟨hr, -⟩ := step_error_cases h
    · exact hsame
    · refine exec_command_keeps_error (s := afterTurn s) (isCommand_of_decodeCommand hd) hx ?_ he
      rintro ⟨rfl, hb⟩
      exact hclr ⟨hb, clrErr_word hd ▸ hw⟩
    · exact illegalCommand_keeps_error w (s := afterTurn s) he
    · exact absurd hr hreset
  exact ⟨hsame.1.trans he, hsame.2⟩

/-! ## No turn stops a sound state -/

/-- R92, R95: a HostWrite of a value that fits its register has a next state. -/
theorem step_of_fitting_write {s : State} {reg : Nat} {v : BitVec 64} (hturn : nextTurn s = .write reg v)
    (hfits : v.toNat < 2 ^ regWidth reg) : ∃ t, step s = .next t := by
  by_cases hreg : reg = 0
  · subst hreg
    obtain ⟨w, rfl⟩ := command_value v hfits
    cases hd : decodeCommand w with
    | ok i =>
      rw [step_of_command hturn hd]
      exact exec_wellFormed i _ (wellFormed_of_isCommand (isCommand_of_decodeCommand hd))
    | error e => exact ⟨_, step_of_illegalCommand hturn hd⟩
  · exact ⟨_, step_of_write hturn hreg hfits⟩

/-- R320: a reset turn is the Reset action in the state with that turn off the agenda. -/
theorem step_of_reset {s : State} (hturn : nextTurn s = .reset) : step s = .next (resetAction (afterTurn s)) :=
  step_of_ends (by rw [hturn]; rfl)

/-- Settles O51: in a sound state the engine's word decodes to a well-formed step, and every host action has an
outcome. -/
theorem soundStatesNeverStop : Obligations.SoundStatesNeverStop := by
  intro s hs hfits
  cases hturn : nextTurn s with
  | engine =>
    obtain ⟨i, hd⟩ := (seqProduced_iff s.seq).mp hs.produced
    rw [step_of_engine hturn hd]
    exact exec_wellFormed i _ (wellFormed_of_decodeSeq hd)
  | write reg v => exact step_of_fitting_write hturn (hfits reg v hturn)
  | read reg => exact ⟨_, step_of_read hturn⟩
  | store addr b => exact ⟨_, step_of_store hturn⟩
  | reset => exact ⟨_, step_of_reset hturn⟩

end Sys2Proof.Proofs.ExceptionRules

/-! PROOFS of the reset and hazards family (70_reset_and_hazards.md): what Reset leaves, what a raced call delivers, what a
host turn can do during a call, and that the sequence of phases depends on LEN only; the obligations among them. -/

namespace Sys2Proof.Proofs.ResetHazardRules

open Sys2Proof.Machine Sys2Proof.Laws Sys2Proof.Proofs.StateRules Sys2Proof.Proofs.MemoryRules
open Sys2Proof.Proofs.EncodingRules Sys2Proof.Proofs.DriverRules Sys2Proof.Proofs.ExceptionRules

/-! ## Reset -/

/-- R321: after Reset STATUS reads 0. -/
theorem readRegister_status_resetAction (s : State) : readRegister (resetAction s) 1 = 0#64 :=
  (by decide : readRegister State.reset 1 = 0#64)

/-- R321: after Reset the staging registers read 0. -/
theorem readRegister_staging_resetAction (s : State) (k : Fin 5) : readRegister (resetAction s) (4 + k.val) = 0#64 := by
  fin_cases k <;> rfl

/-- R321, R32: bits 63:16 of PB0 show fanout and depth 1 and four zero bytes, after Reset as always. -/
theorem readRegister_pb0_high (s : State) : (readRegister s 16).extractLsb' 16 48 = 0x0101#48 := by
  have hpb0 : readRegister s 16 = pword (pbView s) 0 := readRegister_parameterBlock s 0
  obtain ⟨hfirst, -⟩ := parameterBlockWords s
  apply BitVec.eq_of_toNat_eq
  rw [hpb0, BitVec.extractLsb'_toNat, hfirst, Nat.shiftRight_eq_div_pow, BitVec.toNat_ofNat]
  omega

/-- R321, R32: PB1, PB2 and PB3 read 0, after Reset as always. -/
theorem readRegister_pb_zero (s : State) (k : Fin 8) (hk : k.val = 1 ∨ k.val = 2 ∨ k.val = 3) :
    readRegister s (16 + k.val) = 0#64 := by
  rw [readRegister_parameterBlock, pword_zero s k.val hk]

/-- Settles O18: the flags and error registers are the reset state's own, and the registers read as the lemmas above say. -/
theorem resetLeavesSpecifiedValues : Obligations.ResetLeavesSpecifiedValues := by
  intro s hturn
  exact ⟨_, step_of_reset hturn, rfl, rfl, rfl, rfl, rfl, rfl, rfl, readRegister_status_resetAction _, rfl,
    readRegister_staging_resetAction _, readRegister_pb_zero _ 1 (by decide), readRegister_pb_zero _ 2 (by decide),
    readRegister_pb_zero _ 3 (by decide), readRegister_pb0_high _⟩

/-- Settles O19: memory, KEY_POLICY and the rest of the agenda are those of the state Reset is taken in. -/
theorem resetKeepsTheOutside : Obligations.ResetKeepsTheOutside := by
  intro s hturn
  refine ⟨_, step_of_reset hturn, fun a => ?_, resetAction_keyPolicy _, resetAction_agenda _⟩
  rw [resetAction_mem, afterTurn_mem]

/-! ## A call that a host store raced with -/

/-- R332: in a call a host store raced with OUT delivers HASHF's chaining value of the bytes the engine uses. -/
theorem callResult_raced {s : State} (hraced : s.overwritten ≠ []) :
    callResult s =
      hashWords s.dlen s.klen (byteOfPair s.salt0 s.salt1) (byteOfPair s.pers0 s.pers1) (engineByte s) s.len.toNat :=
  if_neg (mt List.isEmpty_iff.mp hraced)

/-- Settles O42: the mixture is the bytes the engine uses, each of which is the stored byte or one the host overwrote. -/
theorem racedCallDeliversHashOfAMixture : Obligations.RacedCallDeliversHashOfAMixture := by
  intro s hraced
  exact ⟨_, rfl, rfl, engineByte s, racedByteIsOldOrNew.1 s, congrArg digestBytes (callResult_raced hraced)⟩

/-! ## Host turns during a call -/

/-- R330: what a host turn other than Reset comes to while BUSY = 1: a discarded write, a read, or a store. -/
theorem busyHostTurn_cases {s t : State} (hb : s.busy = true) (hengine : nextTurn s ≠ .engine)
    (hreset : nextTurn s ≠ .reset) (h : step s = .next t) :
    t = discardBusy (afterTurn s) ∨ (∃ reg, t = hostRead reg (afterTurn s)) ∨
    (∃ addr b, nextTurn s = .store addr b ∧ t = hostStore addr.toNat b (afterTurn s)) := by
  have hb' : (afterTurn s).busy = true := hb
  obtain ⟨i, he, -, -⟩ | ⟨w, i, -, hd, hx⟩ | ⟨w, e, -, -, rfl⟩ | ⟨reg, v, -, -, -, rfl⟩ | ⟨reg, -, rfl⟩ |
    ⟨addr, b, hturn, rfl⟩ | ⟨hr, -⟩ := step_cases h
  · exact absurd he hengine
  · rw [exec_command_busy (isCommand_of_decodeCommand hd) hb'] at hx
    cases hx
    exact .inl rfl
  · exact .inl (illegalCommand_busy w hb')
  · exact .inl (writeRegister_busy reg v hb')
  · exact .inr (.inl ⟨reg, rfl⟩)
  · exact .inr (.inr ⟨addr, b, hturn, rfl⟩)
  · exact absurd hr hreset

/-- R70 (e): a store at or beyond LEN races with no call. -/
theorem hostStore_overwritten_beyond {a : Nat} (b : Byte) {s : State} (ha : s.len.toNat ≤ a) :
    (hostStore a b s).overwritten = s.overwritten := by
  simp [hostStore, Nat.not_lt.mpr ha]

/-- R60: a store at or beyond LEN leaves the message bytes as they were. -/
theorem hostStore_read_message {a a' : Nat} (b : Byte) {s : State} (hwf : Memory.wf s.mem) (ha : s.len.toNat ≤ a)
    (ha' : a' < s.len.toNat) : (hostStore a b s).mem.read a' = s.mem.read a' := by
  rw [hostStore_mem, memory_read_write s.mem a b a' hwf, if_neg (by omega)]

/-- Settles O55: a discarded write changes OVR, a read no register, and a store at or beyond LEN no message byte. -/
theorem hostTurnsDoNotDisturbTheCall : Obligations.HostTurnsDoNotDisturbTheCall := by
  intro s t hb hwf hengine hreset hstore h
  obtain rfl | ⟨reg, rfl⟩ | ⟨addr, b, hturn, rfl⟩ := busyHostTurn_cases hb hengine hreset h
  · exact ⟨by simp [SameEngine], rfl, fun _ _ => rfl⟩
  · exact ⟨by simp [SameEngine], rfl, fun _ _ => rfl⟩
  · have hbeyond : (afterTurn s).len.toNat ≤ addr.toNat := hstore addr b hturn
    exact ⟨hostStore_sameEngine addr.toNat b (afterTurn s), hostStore_overwritten_beyond b hbeyond,
      fun a ha => hostStore_read_message (s := afterTurn s) b hwf hbeyond ha⟩

/-! ## The sequence of phases -/

theorem nextTurn_of_agenda_nil {s : State} (h : s.agenda = []) : nextTurn s = .engine := by
  rw [nextTurn, h, List.headD_nil]

theorem afterTurn_of_agenda_nil {s : State} (h : s.agenda = []) : afterTurn s = s := by
  rw [afterTurn, h, List.tail_nil, ← h]

/-- R338: with no host turn to come a step is the engine's, at the word of SEQ, and takes nothing off the agenda. -/
theorem step_of_agenda_nil {s : State} {i : Instr} (h : s.agenda = []) (hd : decodeSeq s.seq = .ok i) :
    step s = exec i s := by
  rw [step_of_engine (nextTurn_of_agenda_nil h) hd, afterTurn_of_agenda_nil h]

/-- R338, R99: with no host turn to come a step that does not stop runs what the word of SEQ decodes to. -/
theorem step_next_of_agenda_nil {s t : State} (hagenda : s.agenda = []) (h : step s = .next t) :
    ∃ i, decodeSeq s.seq = .ok i ∧ exec i s = .next t := by
  cases hd : decodeSeq s.seq with
  | ok i => exact ⟨i, rfl, (step_of_agenda_nil hagenda hd).symm.trans h⟩
  | error e => cases (step_of_engine_error (nextTurn_of_agenda_nil hagenda) hd).symm.trans h

/-- R338: no sequencer step puts a host turn on the agenda. -/
theorem exec_sequencer_agenda {i : Instr} {s t : State} (hi : isCommand i = false) (h : exec i s = .next t) :
    t.agenda = s.agenda := by
  by_cases hout : i = .out
  · subst hout
    cases h
    rfl
  · rw [sequencerStep_frame hi hout h]

/-- R338: an empty agenda stays empty. -/
theorem step_agenda_nil {s t : State} (hagenda : s.agenda = []) (h : step s = .next t) : t.agenda = [] := by
  obtain ⟨i, hd, hx⟩ := step_next_of_agenda_nil hagenda h
  rw [exec_sequencer_agenda (not_isCommand_of_decodeSeq hd) hx, hagenda]

/-- R213, R216: from CHECK on two states in the same place of a call have the same OFFSET. -/
theorem offset_eq_of_samePlace {s s' : State} (h : SamePlace s s') {p : Phase} {r : BitVec 4} {j : BitVec 3}
    (hseq : s.seq = seqWord p r j) (hp : 2 ≤ (phaseCode p).toNat) : s.offset = s'.offset := by
  obtain ⟨-, -, hoffset, -⟩ := h
  exact hoffset (phaseOf_of_seq hseq ▸ hp)

/-- R214, R215: from LOAD on two states in the same place of a call have the same FINAL. -/
theorem final_eq_of_samePlace {s s' : State} (h : SamePlace s s') {p : Phase} {r : BitVec 4} {j : BitVec 3}
    (hseq : s.seq = seqWord p r j) (hp : 3 ≤ (phaseCode p).toNat) : s.final = s'.final := by
  obtain ⟨-, -, -, hfinal⟩ := h
  exact hfinal (phaseOf_of_seq hseq ▸ hp)

/-- R216: the loop test reads OFFSET and LEN only. -/
theorem moreBlocks_congr {s s' : State} (hoffset : s.offset = s'.offset) (hlen : s.len = s'.len) :
    moreBlocks s = moreBlocks s' := by
  rw [moreBlocks, moreBlocks, hoffset, hlen]

/-- R214, R215: from the same place CHECK selects the same kind of block. -/
theorem exec_check_samePlace {s s' t : State} (hoffset : s.offset = s'.offset) (hlen : s.len = s'.len)
    (h : exec .check s = .next t) : ∃ t', exec .check s' = .next t' ∧ SamePlace t t' := by
  cases h
  refine ⟨_, rfl, ?_⟩
  rw [← moreBlocks_congr hoffset hlen]
  cases moreBlocks s <;> exact ⟨rfl, hlen, fun _ => hoffset, fun _ => rfl⟩

/-- R337: every sequencer step, taken at its own word, goes from the same place to the same place. START gives OFFSET and
CHECK gives FINAL; MIX goes by its round and index, FOLD by FINAL. -/
theorem exec_samePlace {i : Instr} {s s' t : State} (hi : encode i = .sequencer s.seq) (hplace : SamePlace s s')
    (h : exec i s = .next t) : ∃ t', exec i s' = .next t' ∧ SamePlace t t' := by
  have hseq : ∀ {w}, encode i = .sequencer w → s.seq = w := fun hw => Encoded.sequencer.inj (hi.symm.trans hw)
  have hoffset : ∀ {p r j}, encode i = .sequencer (seqWord p r j) → 2 ≤ (phaseCode p).toNat → s.offset = s'.offset :=
    fun hw => offset_eq_of_samePlace hplace (hseq hw)
  have hfinal : ∀ {p r j}, encode i = .sequencer (seqWord p r j) → 3 ≤ (phaseCode p).toNat → s.final = s'.final :=
    fun hw => final_eq_of_samePlace hplace (hseq hw)
  have ⟨_, hlen, _, _⟩ := hplace
  cases i with
  | init | setDlen | setSalt | setPers | hash | clrErr => cases hi
  | idle => cases h; exact ⟨s', rfl, hplace⟩
  | start =>
    cases h
    refine ⟨_, rfl, rfl, hlen, fun _ => rfl, fun h3 => ?_⟩
    rw [phaseOf_of_seq (p := .check) rfl] at h3
    exact absurd h3 (by decide)
  | check => exact exec_check_samePlace (hoffset rfl (by decide)) hlen h
  | load | vinit | out =>
    cases h
    exact ⟨_, rfl, rfl, hlen, fun _ => hoffset rfl (by decide), fun _ => hfinal rfl (by decide)⟩
  | mix r j =>
    obtain ⟨hr, rfl⟩ := exec_mix_next h
    exact ⟨_, exec_mix r j s' hr, rfl, hlen, fun _ => hoffset rfl (by decide), fun _ => hfinal rfl (by decide)⟩
  | fold =>
    have hsame : s.final = s'.final := hfinal rfl (by decide)
    cases h
    exact ⟨_, rfl, by rw [hsame], hlen, fun _ => hoffset rfl (by decide), fun _ => hsame⟩
  | next =>
    cases h
    exact ⟨_, rfl, rfl, hlen, fun _ => congrArg (· + 128) (hoffset rfl (by decide)), fun _ => hfinal rfl (by decide)⟩

/-- R337: with no host turn to come a step goes from the same place to the same place. -/
theorem step_samePlace {s s' t : State} (hagenda : s.agenda = []) (hagenda' : s'.agenda = [])
    (hplace : SamePlace s s') (h : step s = .next t) : ∃ t', step s' = .next t' ∧ SamePlace t t' := by
  obtain ⟨i, hd, hx⟩ := step_next_of_agenda_nil hagenda h
  have ⟨hseq, _⟩ := hplace
  rw [step_of_agenda_nil hagenda' (hseq ▸ hd)]
  exact exec_samePlace (encode_of_decodeSeq hd) hplace hx

/-- R337: with no host turn to come any number of steps goes from the same place to the same place. -/
theorem stepN_samePlace {n : Nat} {s s' t : State} (hagenda : s.agenda = []) (hagenda' : s'.agenda = [])
    (hplace : SamePlace s s') (h : stepN n s = .next t) : ∃ t', stepN n s' = .next t' ∧ SamePlace t t' := by
  induction n generalizing s s' with
  | zero => cases h; exact ⟨s', rfl, hplace⟩
  | succ n ih =>
    rw [stepN_succ] at h
    cases hs : step s with
    | next u =>
      obtain ⟨u', hs', hplace'⟩ := step_samePlace hagenda hagenda' hplace hs
      rw [hs] at h
      rw [stepN_succ, hs']
      exact ih (step_agenda_nil hagenda hs) (step_agenda_nil hagenda' hs') hplace' h
    | fault r => rw [hs] at h; cases h
    | refused r => rw [hs] at h; cases h

/-- R226: two accepted calls of equal LEN are in the same place, START, where nothing is asked of OFFSET and FINAL. -/
theorem samePlace_of_hashAccepted {s s' : State} (h : HashAccepted s) (h' : HashAccepted s') (hlen : s.len = s'.len) :
    SamePlace s s' := by
  obtain ⟨hseq, -⟩ := h
  obtain ⟨hseq', -⟩ := h'
  have hphase : (phaseOf s).toNat = 1 := phaseOf_of_seq hseq
  exact ⟨hseq.trans hseq'.symm, hlen, fun h2 => by omega, fun h3 => by omega⟩

/-- Settles O59: accepted calls start in the same place, and every step keeps them there. -/
theorem sequencingIsDataIndependent : Obligations.SequencingIsDataIndependent := by
  refine ⟨fun s s' t n h h' hlen hrun => ?_, fun s s' t hagenda hagenda' hplace h =>
    step_samePlace hagenda hagenda' hplace h⟩
  have ⟨_, _, hagenda, _⟩ := h
  have ⟨_, _, hagenda', _⟩ := h'
  obtain ⟨t', hrun', hseq, -⟩ := stepN_samePlace hagenda hagenda' (samePlace_of_hashAccepted h h' hlen) hrun
  exact ⟨t', hrun', hseq⟩

end Sys2Proof.Proofs.ResetHazardRules
